-- ==== Sys2Proof/Word.lean ====
section
/-! DEFINITION. The words the block moves: bytes, endpoint numbers and logical-unit numbers
(spec 00_scope.md section 5, 20_memory.md R60). Lengths, counts and buffer addresses are natural
numbers, as 00_scope.md R10 and 20_memory.md R61 say. -/

namespace Sys2Proof

/-- One byte of buffer memory or of a wire structure. -/
abbrev Byte := BitVec 8

/-- An endpoint number. The `TC` word and `wIndex` give it four bits (30_encoding.md R87, R82), and
`N_EP <= 16` (00_scope.md R7). -/
abbrev EpNum := Fin 16

/-- A logical unit number: the low four bits of `bCBWLUN` (30_encoding.md R83). -/
abbrev Lun := Fin 16

end Sys2Proof
end

