-- ==== Sys2Proof/Syntax.lean ====
section
/-! DEFINITION. The instruction type: one constructor for each row of spec/opcode_table.json, and the
data the constructors carry. The block executes no stored program (20_memory.md R73): what stands for
an instruction is a command, an event, a wire structure, a SCSI command block or a descriptor pattern
(30_encoding.md R80). -/

namespace Sys2Proof

/-- Direction of an endpoint or of a data stage (00_scope.md section 5): `OUT = 0`, `IN = 1`. -/
inductive Dir where
  | out
  | inp
  deriving DecidableEq, Repr

/-- Packet type named by a transaction-complete signal (10_state.md R29). -/
inductive Pid where
  | out
  | inp
  | setup
  deriving DecidableEq, Repr

/-- The direction of a packet type: `pid = IN` exactly when `d = IN` (10_state.md R29). -/
def Pid.dir : Pid → Dir
  | .out => .out
  | .inp => .inp
  | .setup => .out

/-- A transaction-complete record `(e, d, pid)`. The direction is a function of `pid`
(10_state.md R29), so it is not stored twice. -/
structure Tc where
  e : EpNum
  pid : Pid
  deriving DecidableEq, Repr

/-- The direction of a transaction-complete record. -/
def Tc.d (t : Tc) : Dir := t.pid.dir

/-- The five fields of a SETUP packet (30_encoding.md R81). -/
structure SetupPacket where
  bmRequestType : Byte
  bRequest : Byte
  wValue : BitVec 16
  wIndex : BitVec 16
  wLength : BitVec 16
  deriving DecidableEq, Repr

/-- The fields of a 31-byte Command Block Wrapper as received, whether or not it is a valid one
(30_encoding.md R83). -/
structure Cbw where
  signature : BitVec 32
  tag : BitVec 32
  length : BitVec 32
  flags : Byte
  lun : Byte
  cbLength : Byte
  cb : Vector Byte 16
  deriving DecidableEq, Repr

/-- A SCSI command with the command-block fields the block reads (30_encoding.md R86). -/
inductive ScsiCmd where
  | testUnitReady
  | requestSense
  | inquiry
  | modeSense6
  | startStopUnit (start eject : Bool)
  | readCapacity10
  | read10 (lba : BitVec 32) (blocks : BitVec 16)
  | write10 (lba : BitVec 32) (blocks : BitVec 16)
  | unknown (op : Byte)
  deriving DecidableEq, Repr

/-- Where a SETUP packet is met: on the wire, sent by the host (30_encoding.md R95), or at the request
dispatcher, which decodes the packet of a `SetupRequest` (42_request_dispatch.md R151). -/
inductive SetupPort where
  | wire
  | request
  deriving DecidableEq, Repr

/-- The instructions, in the order of spec/opcode_table.json. The operands a command answers with `ERR_ARG` where
they are out of range (60_exceptions.md R247) are natural numbers (00_scope.md section 5). -/
inductive Instr where
  -- format OP: events, commands, resets, driver notifications (30_encoding.md R89)
  | evTc (t : Tc)
  | busReset
  | arm (e : EpNum) (d : Dir) (addr n : Nat)
  | queryLen (e : Nat) (d : Dir)
  | setHalt (e : Nat) (d : Dir)
  | clearHalt (e : Nat) (d : Dir)
  | epInit
  | critEnter
  | critExit
  | startControlReturn (ptr avail req : Nat)
  | startReceive (buf expected cb : Nat)
  | accept (cb : Option Nat)
  | reject
  | devSetAddress (a : Nat)
  | devSetConfig (v : Nat)
  | stackInit
  | evBlockReady (ptr len : Nat)
  | evReadComplete (ok : Bool)
  | evWriteDataHandled
  | evWriteComplete (ok : Bool)
  | mscReset
  | mscHaltCleared (d : Dir)
  -- format OP: outputs of the block and queries of the storage driver
  | setupRequest (p : SetupPacket)
  | completion (id : Nat) (ok : Bool)
  | setDeviceAddress (a : BitVec 7)
  | drvGetInfo (lun : Lun) (blockSize : BitVec 32) (count : Nat) (writeProtect : Bool)
  | drvUnitReady (lun : Lun) (ready : Bool)
  | drvStartStop (lun : Lun) (start eject ok : Bool)
  | drvStartRead (lun : Lun) (lba : BitVec 32) (blocks : BitVec 16) (ok : Bool)
  | drvStartWrite (lun : Lun) (lba : BitVec 32) (blocks : BitVec 16) (ok : Bool) (buffer capacity cb : Nat)
  | drvBlockSent (ok : Bool)
  | drvWriteBuffer (cb : Nat) (ok : Bool) (nbytes : Nat)
  -- format OP: steps of the channel (40_arbiter.md section 3)
  | hwOut (e : EpNum) (toggle : Bool) (payload : List Byte)
  | hwIn (e : EpNum)
  | hwSetup (payload : List Byte)
  -- format TC: one row per rule that a completion selects (30_encoding.md R87, R89)
  | cteSetup
  | cteOut
  | cteIn
  | mscOut
  | mscIn
  | extTc (e : EpNum) (d : Dir)
  -- format SETUP8 (30_encoding.md R81, 42_request_dispatch.md R150)
  | setup (port : SetupPort) (p : SetupPacket)
  | getDescriptor (type index : Byte) (language wLength : BitVec 16)
  | setAddress (wValue wIndex : BitVec 16)
  | setConfiguration (wValue wIndex : BitVec 16)
  | clearFeatureEndpointHalt (wIndex : BitVec 16)
  | setFeatureEndpointHalt (wIndex : BitVec 16)
  | bulkOnlyMassStorageReset
  | getMaxLun (wValue : BitVec 16)
  -- formats CBW31 (a bulk OUT packet of any length, 30_encoding.md R92, R95) and CSW13 (R85)
  | cbw (packet : List Byte)
  | csw (tag residue : BitVec 32) (status : Byte)
  -- format CDB (30_encoding.md R86)
  | testUnitReady
  | requestSense
  | inquiry
  | modeSense6
  | startStopUnit (start eject : Bool)
  | readCapacity10
  | read10 (lba : BitVec 32) (blocks : BitVec 16)
  | write10 (lba : BitVec 32) (blocks : BitVec 16)
  | scsiUnknown (op : Byte)
  -- format BDCTL (30_encoding.md R88)
  | bdArmed (e : EpNum) (d : Dir) (k toggle : Bool) (n : BitVec 10)
  | bdStalled (e : EpNum) (d : Dir) (k : Bool) (n : BitVec 10)
  | bdReturned (e : EpNum) (d : Dir) (k toggle : Bool) (n : BitVec 10)
  deriving DecidableEq, Repr

/-- The seven formats of 30_encoding.md R80; `SETUP8` is met at two ports (`SetupPort`). -/
inductive Port where
  | op
  | tc
  | setupWire
  | setupRequest
  | cbw31
  | csw13
  | cdb
  | bdctl
  deriving DecidableEq, Repr

/-- An instruction as the machine receives it: the port (format) it stands at, and its bytes, the first
at the lowest index. -/
structure InRecord where
  port : Port
  bytes : List Byte
  deriving DecidableEq, Repr

end Sys2Proof
end

