-- ==== Sys2Proof/Config.lean ====
section
/-! DEFINITION. The implementation parameters of 00_scope.md R7, OPEN or with a default, with the
constraints of R9 and 20_memory.md R75, and the one free value. The configuration is a constant field of
the state, so every theorem is for every configuration. -/

namespace Sys2Proof

/-- Parameters of one endpoint direction: `PINGPONG[e][d]`, `MPS[e][d]`, `EPBUF[e][d][0]`,
`EPBUF[e][d][1]` (00_scope.md R7, 10_state.md R27). -/
structure EpDirCfg where
  pingpong : Bool
  mps : Nat
  buf0 : Nat
  buf1 : Nat
  deriving DecidableEq, Repr

/-- Both directions of one endpoint number. -/
structure EpCfg where
  out : EpDirCfg
  inp : EpDirCfg
  deriving DecidableEq, Repr

/-- The one disposition command the dispatcher gives for a SETUP (00_scope.md R12). -/
inductive Disposition where
  | controlReturn (ptr avail req : Nat)
  | receive (buf expected cb : Nat)
  | accept (cb : Option Nat)
  | reject
  deriving DecidableEq, Repr

/-- One answer of the oracle `Descriptor`: (type, index, language) to (address, length)
(00_scope.md R7, 42_request_dispatch.md R157). -/
structure DescriptorEntry where
  type : Byte
  index : Byte
  language : BitVec 16
  addr : Nat
  len : Nat
  deriving DecidableEq, Repr

/-- A SCSI command of the subset the block interprets (44_scsi.md R220). -/
inductive ScsiKind where
  | testUnitReady
  | requestSense
  | inquiry
  | modeSense6
  | startStopUnit
  | readCapacity10
  | read10
  | write10
  deriving DecidableEq, Repr

/-- The default `SCSI_SET` (44_scsi.md R220; general knowledge in the spec, 93 G6). -/
def defaultScsiSet : List (Byte × ScsiKind) :=
  [(0x00, .testUnitReady), (0x03, .requestSense), (0x12, .inquiry), (0x1A, .modeSense6),
   (0x1B, .startStopUnit), (0x25, .readCapacity10), (0x28, .read10), (0x2A, .write10)]

/-- Failure reasons of a SCSI command (44_scsi.md R231). -/
inductive SenseReason where
  | notReady
  | writeProtected
  | lbaOutOfRange
  | readError
  | writeError
  | invalidCommand
  | startStopFailed
  deriving DecidableEq, Repr

/-- `sense` (10_state.md R43): the sense key and the additional sense code. -/
structure Sense where
  key : Byte
  asc : Byte
  deriving DecidableEq, Repr

/-- `SENSE_TABLE` (00_scope.md R7, 44_scsi.md R231). -/
structure SenseTable where
  notReady : Sense
  writeProtected : Sense
  lbaOutOfRange : Sense
  readError : Sense
  writeError : Sense
  invalidCommand : Sense
  startStopFailed : Sense
  deriving DecidableEq, Repr

/-- `SENSE_TABLE[reason]`. -/
def SenseTable.get (t : SenseTable) : SenseReason → Sense
  | .notReady => t.notReady
  | .writeProtected => t.writeProtected
  | .lbaOutOfRange => t.lbaOutOfRange
  | .readError => t.readError
  | .writeError => t.writeError
  | .invalidCommand => t.invalidCommand
  | .startStopFailed => t.startStopFailed

/-- The seven rows of `SENSE_TABLE`. -/
def SenseTable.rows (t : SenseTable) : List Sense :=
  [t.notReady, t.writeProtected, t.lbaOutOfRange, t.readError, t.writeError, t.invalidCommand,
   t.startStopFailed]

/-- The default `SENSE_TABLE` (44_scsi.md R231; general knowledge in the spec, 93 G13). -/
def defaultSenseTable : SenseTable where
  notReady := ⟨0x02, 0x3A⟩
  writeProtected := ⟨0x07, 0x27⟩
  lbaOutOfRange := ⟨0x05, 0x21⟩
  readError := ⟨0x03, 0x11⟩
  writeError := ⟨0x03, 0x0C⟩
  invalidCommand := ⟨0x05, 0x20⟩
  startStopFailed := ⟨0x05, 0x24⟩

/-- The `bmRequestType` and `bRequest` of a row of `REQ` (42_request_dispatch.md R150). -/
structure ReqCode where
  bmRequestType : Byte
  bRequest : Byte
  deriving DecidableEq, Repr

/-- `REQ`: the request and type codes of the seven rows, and the feature code of the two halt requests
(00_scope.md R7, 42_request_dispatch.md R150). -/
structure ReqTable where
  getDescriptor : ReqCode
  setAddress : ReqCode
  setConfiguration : ReqCode
  clearFeature : ReqCode
  setFeature : ReqCode
  mscReset : ReqCode
  getMaxLun : ReqCode
  endpointHalt : BitVec 16
  deriving DecidableEq, Repr

/-- The codes of the seven rows. -/
def ReqTable.codes (t : ReqTable) : List ReqCode :=
  [t.getDescriptor, t.setAddress, t.setConfiguration, t.clearFeature, t.setFeature, t.mscReset, t.getMaxLun]

/-- The default `REQ` (42_request_dispatch.md R150; general knowledge in the spec, 93 G2). -/
def defaultReq : ReqTable where
  getDescriptor := ⟨0x80, 0x06⟩
  setAddress := ⟨0x00, 0x05⟩
  setConfiguration := ⟨0x00, 0x09⟩
  clearFeature := ⟨0x02, 0x01⟩
  setFeature := ⟨0x02, 0x03⟩
  mscReset := ⟨0x21, 0xFF⟩
  getMaxLun := ⟨0xA1, 0xFE⟩
  endpointHalt := 0

/-- The packet has the codes of a row of `REQ`. -/
def ReqCode.isOf (x : ReqCode) (p : SetupPacket) : Bool :=
  p.bmRequestType == x.bmRequestType && p.bRequest == x.bRequest

/-- The configuration (00_scope.md R7). The oracles `Dispatch` and `Descriptor` are finite tables: each
has a finite domain, so every oracle is some table. -/
structure Config where
  nEp : Nat
  mps0 : Nat
  eps : Vector EpCfg 16
  addrW : Nat
  cbW : Nat
  mscIn : EpNum
  mscOut : EpNum
  mscIface : Byte
  maxLun : Lun
  configValues : List Byte
  inquiryData : List (List Byte)
  scsiSet : List (Byte × ScsiKind)
  senseTable : SenseTable
  senseClearOnRead : Bool
  req : ReqTable
  descriptors : List DescriptorEntry
  dispatch : List (SetupPacket × Disposition)
  deriving DecidableEq, Repr

/-- `v` is in `CONFIG_VALUES` (00_scope.md R7). -/
def Config.offers (c : Config) (v : Nat) : Bool := c.configValues.any fun b => b.toNat == v

/-- The parameters of endpoint `e` direction `d`. -/
def Config.ep (c : Config) (e : EpNum) : Dir → EpDirCfg
  | .out => (c.eps.get e).out
  | .inp => (c.eps.get e).inp

/-- `PINGPONG[e][d]`. -/
def Config.pingpong (c : Config) (e : EpNum) (d : Dir) : Bool := (c.ep e d).pingpong

/-- `MPS[e][d]`, with `MPS[0][IN] = MPS[0][OUT] = MPS0`. -/
def Config.mps (c : Config) (e : EpNum) (d : Dir) : Nat := if e = 0 then c.mps0 else (c.ep e d).mps

/-- `EPBUF[e][d][k]` (10_state.md R27). -/
def Config.epbuf (c : Config) (e : EpNum) (d : Dir) (k : Bool) : Nat :=
  if k then (c.ep e d).buf1 else (c.ep e d).buf0

/-- The number of addresses of buffer memory, `2^ADDR_W` (20_memory.md R61). -/
def Config.memSize (c : Config) : Nat := 2 ^ c.addrW

/-- `INQUIRY_LEN` (00_scope.md R7). -/
def inquiryLen : Nat := 36

/-- `INQUIRY_DATA[lun]`. -/
def Config.inquiry (c : Config) (lun : Lun) : List Byte := c.inquiryData.getD lun.val []

/-- The command `cdb[0]` selects, if it is in `SCSI_SET` (44_scsi.md R220). -/
def Config.scsiKind (c : Config) (op : Byte) : Option ScsiKind :=
  (c.scsiSet.find? fun x => x.1 == op).map (·.2)

/-- The operation code `SCSI_SET` gives a command, if it has it. -/
def Config.scsiCode (c : Config) (k : ScsiKind) : Option Byte :=
  (c.scsiSet.find? fun x => x.2 == k).map (·.1)

/-- `SENSE_TABLE[reason]` (44_scsi.md R230). -/
def Config.sense (c : Config) (r : SenseReason) : Sense := c.senseTable.get r

/-- A `CB_W`-bit callback identifier (00_scope.md R7). -/
def cbFits (c : Config) (k : Nat) : Bool := decide (k < 2 ^ c.cbW)

/-- An `ADDR_W`-bit address (00_scope.md R7). -/
def addrFits (c : Config) (a : Nat) : Bool := decide (a < c.memSize)

/-- The operands of an answer of `Dispatch` have the widths of `ADDR_W` and `CB_W`: a legal disposition
(93_implementation_defined.md U9). -/
def Disposition.fits (c : Config) : Disposition → Bool
  | .controlReturn ptr _ _ => addrFits c ptr
  | .receive buf _ cb => addrFits c buf && cbFits c cb
  | .accept (some cb) => cbFits c cb
  | .accept none => true
  | .reject => true

/-- The oracle `Descriptor`: the first entry for the key, or none (42_request_dispatch.md R157). -/
def Config.descriptor (c : Config) (type index : Byte) (language : BitVec 16) : Option (Nat × Nat) :=
  (c.descriptors.find? fun x => x.type == type && x.index == index && x.language == language).map
    fun x => (x.addr, x.len)

/-- The oracle `Dispatch`; a request it does not recognise gets `REJECT` (42_request_dispatch.md R158,
R159). -/
def Config.dispatchOf (c : Config) (p : SetupPacket) : Disposition :=
  ((c.dispatch.find? fun x => x.1 == p).map (·.2)).getD .reject

/-- The packet buffers that exist, as (address, length) pairs: both directions of endpoints
`0 .. N_EP-1`, two of them where the direction is double-buffered. -/
def Config.packetBuffers (c : Config) : List (Nat × Nat) :=
  (List.finRange 16).flatMap fun e =>
    if e.val < c.nEp then
      [Dir.out, Dir.inp].flatMap fun d =>
        (c.epbuf e d false, c.mps e d) ::
          (if c.pingpong e d then [(c.epbuf e d true, c.mps e d)] else [])
    else []

/-- Two byte ranges share no address; an empty range shares none. -/
def rangesDisjoint (a b : Nat × Nat) : Bool :=
  decide (a.2 = 0 ∨ b.2 = 0 ∨ a.1 + a.2 ≤ b.1 ∨ b.1 + b.2 ≤ a.1)

/-- No two ranges of a list overlap. -/
def allDisjoint : List (Nat × Nat) → Bool
  | [] => true
  | a :: rest => rest.all (rangesDisjoint a) && allDisjoint rest

/-- The parameters that are tables: `SCSI_SET` gives a code one command, `SENSE_TABLE`'s keys have four
bits (10_state.md R43), no two rows of `REQ` have the same codes, and the oracles' answers have operands of
the widths of `ADDR_W` and `CB_W`. DESIGN CHOICE (assumption 29): R7 leaves what a table must keep unsaid. -/
def Config.tablesOk (c : Config) : Bool :=
  decide (c.scsiSet.map Prod.fst).Nodup && (c.senseTable.rows.all fun x => decide (x.key.toNat < 16)) &&
  decide c.req.codes.Nodup && (c.descriptors.all fun x => addrFits c x.addr) &&
  (c.dispatch.all fun x => x.2.fits c)

/-- The constraints of 00_scope.md R7 and R9 and 20_memory.md R75: a configuration that breaks one is
refused by the model (93_implementation_defined.md U8). -/
def Config.wf (c : Config) : Bool :=
  decide (1 ≤ c.nEp) && decide (c.nEp ≤ 16) && decide (8 ≤ c.mps0) && decide (c.mps0 ≤ 1023) &&
  ((List.finRange 16).all fun e => decide (c.nEp ≤ e.val) || [Dir.out, Dir.inp].all fun d =>
    decide (1 ≤ c.mps e d) && decide (c.mps e d ≤ 1023)) &&
  decide (1 ≤ c.mscIn.val) && decide (c.mscIn.val < c.nEp) &&
  decide (1 ≤ c.mscOut.val) && decide (c.mscOut.val < c.nEp) &&
  decide (31 ≤ c.mps c.mscOut .out) && decide (13 ≤ c.mps c.mscIn .inp) &&
  !c.configValues.isEmpty && !c.configValues.contains 0 &&
  decide (c.inquiryData.length = c.maxLun.val + 1) &&
  (c.inquiryData.all fun b => decide (b.length = inquiryLen)) &&
  (c.packetBuffers.all fun b => decide (b.1 + b.2 ≤ c.memSize)) && allDisjoint c.packetBuffers &&
  c.tablesOk

/-- An endpoint the default configuration does not have. -/
def EpCfg.absent : EpCfg := ⟨⟨false, 0, 0, 0⟩, ⟨false, 0, 0, 0⟩⟩

/-- The configuration `State.reset` uses: `CFG1` of 95_test_vectors.md (two endpoint numbers, none
double-buffered, `MPS0 = 8`, bulk size 64, `ADDR_W = 16`). DESIGN CHOICE (assumption 1): the spec leaves
every one of these open; `CB_W`, the INQUIRY bytes, and the two oracle tables are open there too. -/
def Config.cfg1 : Config where
  nEp := 2
  mps0 := 8
  eps := ((Vector.replicate 16 EpCfg.absent).set 0 ⟨⟨false, 8, 0x0000, 0⟩, ⟨false, 8, 0x0008, 0⟩⟩).set 1
    ⟨⟨false, 64, 0x0040, 0⟩, ⟨false, 64, 0x0080, 0⟩⟩
  addrW := 16
  cbW := 16
  mscIn := 1
  mscOut := 1
  mscIface := 0
  maxLun := 0
  configValues := [1]
  inquiryData := [List.replicate 36 0]
  scsiSet := defaultScsiSet
  senseTable := defaultSenseTable
  senseClearOnRead := false
  req := defaultReq
  descriptors := []
  dispatch := []

/-- The address of the last block in a READ CAPACITY response when the driver counts more blocks than 32
bits can number: 44_scsi.md R225 states no word there. A free value, by the count (assumption 30). -/
opaque freeLastBlock : Nat → BitVec 32

end Sys2Proof
end

