-- ==== Sys2Proof/WellFormed.lean ====
section
/-! DEFINITION. Which instructions the formats can carry: each operand fits the width the spec gives it
(00_scope.md R7; 30_encoding.md R87, R89; 10_state.md R42), a number with no width is any natural
(00_scope.md section 5), and a row that stands for "any other word" is not another row's word. -/

namespace Sys2Proof

/-- The 32 bits of `msc.wbuf_cap` (10_state.md R42). -/
def capacityFits (n : Nat) : Bool := decide (n < 2 ^ 32)

/-- A descriptor that exists: `k = 1` only in a double-buffered direction (10_state.md R20). -/
def bdExists (c : Config) (e : EpNum) (d : Dir) (k : Bool) : Bool :=
  decide (e.val < c.nEp) && (!k || c.pingpong e d)

/-- The packet matches a row of the request table (42_request_dispatch.md R150). -/
def isKnownRequest (c : Config) (p : SetupPacket) : Bool :=
  c.req.getDescriptor.isOf p ||
  (c.req.setAddress.isOf p && p.wLength == 0) ||
  (c.req.setConfiguration.isOf p && p.wLength == 0) ||
  (c.req.clearFeature.isOf p && p.wValue == c.req.endpointHalt && p.wLength == 0) ||
  (c.req.setFeature.isOf p && p.wValue == c.req.endpointHalt && p.wLength == 0) ||
  (c.req.mscReset.isOf p && p.wValue == 0 && p.wIndex == c.mscIface.setWidth 16 && p.wLength == 0) ||
  (c.req.getMaxLun.isOf p && p.wIndex == c.mscIface.setWidth 16 && p.wLength == 1)

/-- `SCSI_SET` has the command (44_scsi.md R220). -/
def hasScsi (c : Config) (k : ScsiKind) : Bool := (c.scsiCode k).isSome

/-- The operands of an instruction are ones its format can carry. -/
def WellFormed (c : Config) : Instr → Bool
  | .evTc t => decide (t.pid = .setup → t.e = 0)
  | .arm e _ addr _ => decide (e.val < c.nEp) && addrFits c addr
  | .startControlReturn ptr _ _ => addrFits c ptr
  | .startReceive buf _ cb => addrFits c buf && cbFits c cb
  | .accept (some cb) => cbFits c cb
  | .accept none => true
  | .evBlockReady ptr _ => addrFits c ptr
  | .completion id _ => cbFits c id
  | .drvStartWrite _ _ _ _ buffer capacity cb => addrFits c buffer && capacityFits capacity && cbFits c cb
  | .drvWriteBuffer cb _ _ => cbFits c cb
  | .extTc e .out => decide (e ≠ 0) && decide (e ≠ c.mscOut)
  | .extTc e .inp => decide (e ≠ 0) && decide (e ≠ c.mscIn)
  | .setup .request p => !isKnownRequest c p
  | .setup .wire _ => true
  | .testUnitReady => hasScsi c .testUnitReady
  | .requestSense => hasScsi c .requestSense
  | .inquiry => hasScsi c .inquiry
  | .modeSense6 => hasScsi c .modeSense6
  | .startStopUnit _ _ => hasScsi c .startStopUnit
  | .readCapacity10 => hasScsi c .readCapacity10
  | .read10 _ _ => hasScsi c .read10
  | .write10 _ _ => hasScsi c .write10
  | .scsiUnknown op => (c.scsiKind op).isNone
  | .bdArmed e d k _ _ => bdExists c e d k
  | .bdStalled e d k _ => bdExists c e d k
  | .bdReturned e d k _ _ => bdExists c e d k
  | .busReset | .queryLen _ _ | .setHalt _ _ | .clearHalt _ _ | .epInit | .critEnter | .critExit
  | .reject | .devSetAddress _ | .devSetConfig _ | .stackInit | .evReadComplete _
  | .evWriteDataHandled | .evWriteComplete _ | .mscReset | .mscHaltCleared _ | .setupRequest _
  | .setDeviceAddress _ | .drvGetInfo _ _ _ _ | .drvUnitReady _ _ | .drvStartStop _ _ _ _
  | .drvStartRead _ _ _ _ | .drvBlockSent _ | .hwOut _ _ _ | .hwIn _ | .hwSetup _ | .cteSetup
  | .cteOut | .cteIn | .mscOut | .mscIn | .getDescriptor _ _ _ _ | .setAddress _ _ | .setConfiguration _ _
  | .clearFeatureEndpointHalt _ | .setFeatureEndpointHalt _ | .bulkOnlyMassStorageReset
  | .getMaxLun _ | .cbw _ | .csw _ _ _ => true

end Sys2Proof
end

