-- ==== Sys2Proof/Decode.lean ====
section
/-! DEFINITION. Decoding an input record to an instruction, total on any bytes, and the encoder. The
wire formats, the `TC` word, the `BDCTL` word and the operation codes are the spec's (30_encoding.md R81
to R89, 42_request_dispatch.md R150). How the operands of an `OP` follow its code, and how a `BDCTL`
record names its descriptor, is this model's own layout (assumption 2): an operand the spec gives a width
is its bytes, least significant first, and a natural number is a string of 7-bit groups. -/

namespace Sys2Proof

/-! ### Byte order (00_scope.md section 5, 20_memory.md R62, R63) -/

/-- Byte `i` of a list; zero beyond its end. -/
def byteAt (b : List Byte) (i : Nat) : Byte := b.getD i 0

/-- `LE16(b, i)`. -/
def le16At (b : List Byte) (i : Nat) : BitVec 16 := (byteAt b (i + 1) ++ byteAt b i : BitVec (8 + 8))

/-- `LE32(b, i)`. -/
def le32At (b : List Byte) (i : Nat) : BitVec 32 :=
  (byteAt b (i + 3) ++ byteAt b (i + 2) ++ byteAt b (i + 1) ++ byteAt b i : BitVec (8 + 8 + 8 + 8))

/-- `BE16(b, i)`. -/
def be16At (b : List Byte) (i : Nat) : BitVec 16 := (byteAt b i ++ byteAt b (i + 1) : BitVec (8 + 8))

/-- `BE32(b, i)`. -/
def be32At (b : List Byte) (i : Nat) : BitVec 32 :=
  (byteAt b i ++ byteAt b (i + 1) ++ byteAt b (i + 2) ++ byteAt b (i + 3) : BitVec (8 + 8 + 8 + 8))

/-- `le16(v)`. -/
def le16 (v : BitVec 16) : List Byte := [v.extractLsb' 0 8, v.extractLsb' 8 8]

/-- `le32(v)`. -/
def le32 (v : BitVec 32) : List Byte :=
  [v.extractLsb' 0 8, v.extractLsb' 8 8, v.extractLsb' 16 8, v.extractLsb' 24 8]

/-- `be16(v)`. -/
def be16 (v : BitVec 16) : List Byte := [v.extractLsb' 8 8, v.extractLsb' 0 8]

/-- `be32(v)`. -/
def be32 (v : BitVec 32) : List Byte :=
  [v.extractLsb' 24 8, v.extractLsb' 16 8, v.extractLsb' 8 8, v.extractLsb' 0 8]

/-! ### The wire bytes of the structures -/

/-- `dCBWSignature`: the bytes `55 53 42 43` (30_encoding.md R83). -/
def cbwSignature : BitVec 32 := 0x43425355

/-- `dCSWSignature`: the bytes `55 53 42 53` (30_encoding.md R85). -/
def cswSignature : BitVec 32 := 0x53425355

/-- The 8 bytes of a SETUP packet (30_encoding.md R81). -/
def SetupPacket.bytes (p : SetupPacket) : List Byte :=
  [p.bmRequestType, p.bRequest] ++ le16 p.wValue ++ le16 p.wIndex ++ le16 p.wLength

/-- The fields of a SETUP packet (30_encoding.md R81). -/
def SetupPacket.parse (b : List Byte) : SetupPacket where
  bmRequestType := byteAt b 0
  bRequest := byteAt b 1
  wValue := le16At b 2
  wIndex := le16At b 4
  wLength := le16At b 6

/-- The 31 bytes of a CBW (30_encoding.md R83). -/
def Cbw.bytes (w : Cbw) : List Byte :=
  le32 w.signature ++ le32 w.tag ++ le32 w.length ++ [w.flags, w.lun, w.cbLength] ++ w.cb.toList

/-- The sixteen values of a function, in a form Lean's kernel evaluates. -/
def tabulate16 {α : Type} (f : Fin 16 → α) : Vector α 16 := ⟨⟨(List.finRange 16).map f⟩, by simp⟩

/-- The 16 bytes at offset `i`, with zero where the list is shorter. A command block inside a CBW always has 16
bytes; that `cdb[i]` reads zero beyond the end of a shorter block given by itself is the model's: DESIGN CHOICE
(assumption 16). -/
def bytes16At (b : List Byte) (i : Nat) : Vector Byte 16 := tabulate16 fun j => byteAt b (i + j.val)

/-- The fields of a CBW (30_encoding.md R83). -/
def Cbw.parse (b : List Byte) : Cbw where
  signature := le32At b 0
  tag := le32At b 4
  length := le32At b 8
  flags := byteAt b 12
  lun := byteAt b 13
  cbLength := byteAt b 14
  cb := bytes16At b 15

/-- The 13 bytes of a CSW (30_encoding.md R85). -/
def cswBytes (tag residue : BitVec 32) (status : Byte) : List Byte :=
  le32 cswSignature ++ le32 tag ++ le32 residue ++ [status]

/-! ### The `TC` word -/

/-- The `TC` word of a record (30_encoding.md R87). -/
def tcByte (t : Tc) : Byte :=
  (BitVec.ofNat 4 t.e.val ++
    (match t.pid with | .out => 0b0000#4 | .inp => 0b1010#4 | .setup => 0b0100#4) : BitVec (4 + 4))

/-- The record of a `TC` word; a word outside 30_encoding.md R87 has none. -/
def tcOfByte (b : Byte) : Option Tc :=
  let e : EpNum := Fin.ofNat 16 (b.toNat / 16)
  match b.toNat % 16 with
  | 0x0 => some ⟨e, .out⟩
  | 0xA => some ⟨e, .inp⟩
  | 0x4 => if e = 0 then some ⟨e, .setup⟩ else none
  | _ => none

/-- The row a `TC` word selects (30_encoding.md R89, R87). -/
def instrOfTc (c : Config) (t : Tc) : Instr :=
  match t.pid with
  | .setup => .cteSetup
  | .out => if t.e = 0 then .cteOut else if t.e = c.mscOut then .mscOut else .extTc t.e .out
  | .inp => if t.e = 0 then .cteIn else if t.e = c.mscIn then .mscIn else .extTc t.e .inp

/-! ### The SCSI command block -/

/-- The command a command block selects: only `cdb[0]` selects, in `SCSI_SET`, and the fields are read from
the 16 bytes as received (44_scsi.md R220, R229; 30_encoding.md R86). -/
def scsiOf (c : Config) (cb : Vector Byte 16) : ScsiCmd :=
  let b := cb.toList
  match c.scsiKind (byteAt b 0) with
  | some .testUnitReady => .testUnitReady
  | some .requestSense => .requestSense
  | some .inquiry => .inquiry
  | some .modeSense6 => .modeSense6
  | some .startStopUnit => .startStopUnit ((byteAt b 4).getLsbD 0) ((byteAt b 4).getLsbD 1)
  | some .readCapacity10 => .readCapacity10
  | some .read10 => .read10 (be32At b 2) (be16At b 7)
  | some .write10 => .write10 (be32At b 2) (be16At b 7)
  | none => .unknown (byteAt b 0)

/-- The row of the opcode table a SCSI command is. -/
def instrOfScsi : ScsiCmd → Instr
  | .testUnitReady => .testUnitReady
  | .requestSense => .requestSense
  | .inquiry => .inquiry
  | .modeSense6 => .modeSense6
  | .startStopUnit s e => .startStopUnit s e
  | .readCapacity10 => .readCapacity10
  | .read10 l n => .read10 l n
  | .write10 l n => .write10 l n
  | .unknown o => .scsiUnknown o

/-! ### The SETUP requests -/

/-- The request row a SETUP packet matches, tried in the order of 42_request_dispatch.md R151 (standard
rows, then class rows); a packet that matches none is `SETUP` at the dispatcher. -/
def instrOfRequest (c : Config) (p : SetupPacket) : Instr :=
  if c.req.getDescriptor.isOf p then
    .getDescriptor (p.wValue.extractLsb' 8 8) (p.wValue.extractLsb' 0 8) p.wIndex p.wLength
  else if c.req.setAddress.isOf p ∧ p.wLength = 0 then .setAddress p.wValue p.wIndex
  else if c.req.setConfiguration.isOf p ∧ p.wLength = 0 then .setConfiguration p.wValue p.wIndex
  else if c.req.clearFeature.isOf p ∧ p.wValue = c.req.endpointHalt ∧ p.wLength = 0 then
    .clearFeatureEndpointHalt p.wIndex
  else if c.req.setFeature.isOf p ∧ p.wValue = c.req.endpointHalt ∧ p.wLength = 0 then
    .setFeatureEndpointHalt p.wIndex
  else if c.req.mscReset.isOf p ∧ p.wValue = 0 ∧ p.wIndex = c.mscIface.setWidth 16 ∧ p.wLength = 0 then
    .bulkOnlyMassStorageReset
  else if c.req.getMaxLun.isOf p ∧ p.wIndex = c.mscIface.setWidth 16 ∧ p.wLength = 1 then
    .getMaxLun p.wValue
  else .setup .request p

/-! ### The `OP` format -/

/-- The operand byte that names an endpoint direction: the number in bits 3 to 0 and the direction in
bit 7, as `wIndex` has them (30_encoding.md R82). -/
def epByte (e : EpNum) (d : Dir) : Byte :=
  ((match d with | .out => 0#4 | .inp => 8#4) ++ BitVec.ofNat 4 e.val : BitVec (4 + 4))

/-- The endpoint direction of an operand byte; bits 6 to 4 must be zero. -/
def epOfByte (b : Byte) : Option (EpNum × Dir) :=
  match b.toNat / 16 with
  | 0 => some (Fin.ofNat 16 b.toNat, .out)
  | 8 => some (Fin.ofNat 16 b.toNat, .inp)
  | _ => none

/-- An operand byte that is a bit. -/
def boolByte (x : Bool) : Byte := if x then 1 else 0

/-- The bit of an operand byte; a value above 1 is none. -/
def boolOfByte (b : Byte) : Option Bool := if b = 0 then some false else if b = 1 then some true else none

/-- The operand byte of a direction. -/
def dirByte : Dir → Byte
  | .out => 0
  | .inp => 1

/-- The direction of an operand byte. -/
def dirOfByte (b : Byte) : Option Dir := if b = 0 then some .out else if b = 1 then some .inp else none

/-- The logical unit of an operand byte. -/
def lunOfByte (b : Byte) : Option Lun := if h : b.toNat < 16 then some ⟨b.toNat, h⟩ else none

/-- An operand that is a natural number: seven bits a byte, least significant first; bit 7 says that more
follow. -/
def natBytesFuel : Nat → Nat → List Byte
  | 0, n => [BitVec.ofNat 8 (n % 128)]
  | fuel + 1, n =>
      if n < 128 then [BitVec.ofNat 8 n] else BitVec.ofNat 8 (n % 128 + 128) :: natBytesFuel fuel (n / 128)

/-- The operand bytes of a natural number of any size. -/
def natBytes (n : Nat) : List Byte := natBytesFuel n n

/-! #### Readers: an operand and the bytes after it, or none where bytes are missing -/

/-- The next byte. -/
def readByte : List Byte → Option (Byte × List Byte)
  | [] => none
  | b :: rest => some (b, rest)

/-- The next natural number. -/
def readNat : List Byte → Option (Nat × List Byte)
  | [] => none
  | b :: rest =>
      if b.toNat < 128 then some (b.toNat, rest)
      else (readNat rest).map fun x => (b.toNat - 128 + 128 * x.1, x.2)

/-- The next `n` bytes. -/
def readBytes (n : Nat) (b : List Byte) : Option (List Byte × List Byte) :=
  if n ≤ b.length then some (b.take n, b.drop n) else none

/-- The next two bytes as a 16-bit number. -/
def read16 (b : List Byte) : Option (BitVec 16 × List Byte) := (readBytes 2 b).map fun x => (le16At x.1 0, x.2)

/-- The next four bytes as a 32-bit number. -/
def read32 (b : List Byte) : Option (BitVec 32 × List Byte) := (readBytes 4 b).map fun x => (le32At x.1 0, x.2)

/-- The next byte read by `f`. -/
def readAs {α : Type} (f : Byte → Option α) (b : List Byte) : Option (α × List Byte) :=
  match b with
  | [] => none
  | x :: rest => (f x).map fun y => (y, rest)

/-- The instruction, where nothing but zero padding is left. -/
def ending (i : Instr) (rest : List Byte) : Option Instr := if rest.all (· == 0) then some i else none

/-- The 7-bit address of an operand byte. -/
def addressOfByte (b : Byte) : Option (BitVec 7) := if b.getLsbD 7 then none else some (b.setWidth 7)

/-- The endpoint number of an operand byte. -/
def epNumOfByte (b : Byte) : Option EpNum := if b.toNat < 16 then some (Fin.ofNat 16 b.toNat) else none

/-- The head byte of `HW_OUT`: the endpoint number in bits 3 to 0, the packet type in bits 6 to 4 as `TC` has
it (0 OUT, 2 SETUP), and the host's data toggle in bit 7, zero for SETUP. -/
def hwOutByte (e : EpNum) (toggle : Bool) : Byte :=
  (BitVec.ofBool toggle ++ 0#3 ++ BitVec.ofNat 4 e.val : BitVec (1 + 3 + 4))

/-- The instruction of `HW_OUT`'s head byte and payload. -/
def hwOutOf (h : Byte) (payload : List Byte) : Option Instr :=
  match h.toNat / 16 % 8 with
  | 0 => some (.hwOut (Fin.ofNat 16 h.toNat) (h.getLsbD 7) payload)
  | 2 => if h.toNat = 0x20 then some (.hwSetup payload) else none
  | _ => none

/-- The instruction of an operation code and its operand bytes (30_encoding.md R89). An operand with no width is a
natural number, that of `DEV_SET_ADDRESS` among them (42_request_dispatch.md R152). -/
def decodeOperands (op : Nat) (b : List Byte) : Option Instr :=
  match op with
  | 0x01 => do let (t, r) ← readAs tcOfByte b; ending (.evTc t) r
  | 0x02 => ending .busReset b
  | 0x10 => do
      let (x, r) ← readAs epOfByte b; let (a, r) ← readNat r; let (n, r) ← readNat r
      ending (.arm x.1 x.2 a n) r
  | 0x11 => do let (e, r) ← readNat b; let (d, r) ← readAs dirOfByte r; ending (.queryLen e d) r
  | 0x12 => do let (e, r) ← readNat b; let (d, r) ← readAs dirOfByte r; ending (.setHalt e d) r
  | 0x13 => do let (e, r) ← readNat b; let (d, r) ← readAs dirOfByte r; ending (.clearHalt e d) r
  | 0x14 => ending .epInit b
  | 0x15 => ending .critEnter b
  | 0x16 => ending .critExit b
  | 0x20 => do
      let (p, r) ← readNat b; let (a, r) ← readNat r; let (q, r) ← readNat r
      ending (.startControlReturn p a q) r
  | 0x21 => do
      let (p, r) ← readNat b; let (x, r) ← readNat r; let (k, r) ← readNat r
      ending (.startReceive p x k) r
  | 0x22 => do
      let (given, r) ← readAs boolOfByte b
      if given then do let (k, r) ← readNat r; ending (.accept (some k)) r else ending (.accept none) r
  | 0x23 => ending .reject b
  | 0x30 => do let (a, r) ← readNat b; ending (.devSetAddress a) r
  | 0x31 => do let (v, r) ← readNat b; ending (.devSetConfig v) r
  | 0x40 => ending .stackInit b
  | 0x50 => do let (p, r) ← readNat b; let (n, r) ← readNat r; ending (.evBlockReady p n) r
  | 0x51 => do let (ok, r) ← readAs boolOfByte b; ending (.evReadComplete ok) r
  | 0x52 => ending .evWriteDataHandled b
  | 0x53 => do let (ok, r) ← readAs boolOfByte b; ending (.evWriteComplete ok) r
  | 0x54 => ending .mscReset b
  | 0x55 => do let (d, r) ← readAs dirOfByte b; ending (.mscHaltCleared d) r
  | 0x80 => do let (p, r) ← readBytes 8 b; ending (.setupRequest (SetupPacket.parse p)) r
  | 0x81 => do
      let (k, r) ← readNat b; let (ok, r) ← readAs boolOfByte r
      ending (.completion k ok) r
  | 0x82 => do let (a, r) ← readAs addressOfByte b; ending (.setDeviceAddress a) r
  | 0x90 => do
      let (l, r) ← readAs lunOfByte b; let (bs, r) ← read32 r; let (n, r) ← readNat r
      let (wp, r) ← readAs boolOfByte r
      ending (.drvGetInfo l bs n wp) r
  | 0x91 => do
      let (l, r) ← readAs lunOfByte b; let (ready, r) ← readAs boolOfByte r
      ending (.drvUnitReady l ready) r
  | 0x92 => do
      let (l, r) ← readAs lunOfByte b; let (st, r) ← readAs boolOfByte r
      let (ej, r) ← readAs boolOfByte r; let (ok, r) ← readAs boolOfByte r
      ending (.drvStartStop l st ej ok) r
  | 0x93 => do
      let (l, r) ← readAs lunOfByte b; let (lba, r) ← read32 r; let (n, r) ← read16 r
      let (ok, r) ← readAs boolOfByte r
      ending (.drvStartRead l lba n ok) r
  | 0x94 => do
      let (l, r) ← readAs lunOfByte b; let (lba, r) ← read32 r; let (n, r) ← read16 r
      let (ok, r) ← readAs boolOfByte r; let (p, r) ← readNat r; let (cap, r) ← readNat r
      let (k, r) ← readNat r
      ending (.drvStartWrite l lba n ok p cap k) r
  | 0x95 => do let (ok, r) ← readAs boolOfByte b; ending (.drvBlockSent ok) r
  | 0x96 => do
      let (k, r) ← readNat b; let (ok, r) ← readAs boolOfByte r; let (n, r) ← readNat r
      ending (.drvWriteBuffer k ok n) r
  | 0xE0 => do
      let (h, r) ← readByte b; let (m, r) ← readNat r; let (payload, r) ← readBytes m r
      (hwOutOf h payload).bind fun i => ending i r
  | 0xE1 => do let (e, r) ← readAs epNumOfByte b; ending (.hwIn e) r
  | _ => none

/-- The instruction of an `OP` record: its first byte is the operation code (30_encoding.md R89). -/
def decodeOp (b : List Byte) : Option Instr := decodeOperands (byteAt b 0).toNat (b.drop 1)

/-! ### The `BDCTL` format -/

/-- The row a descriptor control word is, from its three flag bits; bits 12 to 10 are ignored (10_state.md
R22, 30_encoding.md R88, R92). A word whose flags are those of none of the four patterns of R88 (stalled and
owned by the block, or stalled with toggle 1) is no instruction: DESIGN CHOICE (assumption 31). -/
def instrOfCtl (e : EpNum) (d : Dir) (k : Bool) (w : BitVec 16) : Option Instr :=
  let n := w.extractLsb' 0 10
  match w.getLsbD 15, w.getLsbD 13 with
  | true, false => some (.bdArmed e d k (w.getLsbD 14) n)
  | true, true => if w.getLsbD 14 then none else some (.bdStalled e d k n)
  | false, false => some (.bdReturned e d k (w.getLsbD 14) n)
  | false, true => none

/-- The instruction of a `BDCTL` record: the control word, then the operand bytes that name the
descriptor. -/
def decodeBd (b : List Byte) : Option Instr := do
  let (w, r) ← read16 b
  let (x, r) ← readAs epOfByte r
  let (k, r) ← readAs boolOfByte r
  (instrOfCtl x.1 x.2 k w).bind fun i => ending i r

/-! ### Decode -/

/-- The instruction of a record, before the check of its operands. -/
def decodeRaw (c : Config) (r : InRecord) : Option Instr :=
  match r.port with
  | .op => decodeOp r.bytes
  | .tc => if r.bytes.length = 1 then (tcOfByte (byteAt r.bytes 0)).map (instrOfTc c) else none
  | .setupWire =>
      if r.bytes.length = 8 then some (.setup .wire (SetupPacket.parse r.bytes)) else none
  | .setupRequest =>
      if r.bytes.length = 8 then some (instrOfRequest c (SetupPacket.parse r.bytes)) else none
  | .cbw31 => some (.cbw r.bytes)
  | .csw13 =>
      if r.bytes.length = 13 ∧ le32At r.bytes 0 = cswSignature then
        some (.csw (le32At r.bytes 4) (le32At r.bytes 8) (byteAt r.bytes 12))
      else none
  | .cdb =>
      if 1 ≤ r.bytes.length ∧ r.bytes.length ≤ 16 then some (instrOfScsi (scsiOf c (bytes16At r.bytes 0)))
      else none
  | .bdctl => decodeBd r.bytes

/-- The instruction of a record: a well-formed one, or none (the record is refused, 30_encoding.md
R92). -/
def decode (c : Config) (r : InRecord) : Option Instr :=
  match decodeRaw c r with
  | some i => if WellFormed c i then some i else none
  | none => none

/-! ### Encode -/

/-- The `OP` record of a code and operand bytes. -/
def opRecord (op : Byte) (operands : List Byte) : InRecord := ⟨.op, op :: operands⟩

/-- The `SETUP8` record of a request at the dispatcher. -/
def requestRecord (x : ReqCode) (wValue wIndex wLength : BitVec 16) : InRecord :=
  ⟨.setupRequest, SetupPacket.bytes ⟨x.bmRequestType, x.bRequest, wValue, wIndex, wLength⟩⟩

/-- The `CDB` record of a command and the command-block bytes after its code. -/
def cdbRecord (c : Config) (k : ScsiKind) (b : List Byte) : InRecord := ⟨.cdb, (c.scsiCode k).getD 0 :: b⟩

/-- The `BDCTL` record of a control word and the descriptor it is for. -/
def bdRecord (e : EpNum) (d : Dir) (k owner toggle stall : Bool) (n : BitVec 10) : InRecord :=
  ⟨.bdctl, le16 (BitVec.ofBool owner ++ BitVec.ofBool toggle ++ BitVec.ofBool stall ++ 0#3 ++ n :
    BitVec (1 + 1 + 1 + 3 + 10)) ++ [epByte e d, boolByte k]⟩

/-- The record of an instruction, from the same encoding tables. -/
def encode (c : Config) : Instr → InRecord
  | .evTc t => opRecord 0x01 [tcByte t]
  | .busReset => opRecord 0x02 []
  | .arm e d addr n => opRecord 0x10 (epByte e d :: natBytes addr ++ natBytes n)
  | .queryLen e d => opRecord 0x11 (natBytes e ++ [dirByte d])
  | .setHalt e d => opRecord 0x12 (natBytes e ++ [dirByte d])
  | .clearHalt e d => opRecord 0x13 (natBytes e ++ [dirByte d])
  | .epInit => opRecord 0x14 []
  | .critEnter => opRecord 0x15 []
  | .critExit => opRecord 0x16 []
  | .startControlReturn p a r => opRecord 0x20 (natBytes p ++ natBytes a ++ natBytes r)
  | .startReceive b x k => opRecord 0x21 (natBytes b ++ natBytes x ++ natBytes k)
  | .accept none => opRecord 0x22 [boolByte false]
  | .accept (some k) => opRecord 0x22 (boolByte true :: natBytes k)
  | .reject => opRecord 0x23 []
  | .devSetAddress a => opRecord 0x30 (natBytes a)
  | .devSetConfig v => opRecord 0x31 (natBytes v)
  | .stackInit => opRecord 0x40 []
  | .evBlockReady p l => opRecord 0x50 (natBytes p ++ natBytes l)
  | .evReadComplete ok => opRecord 0x51 [boolByte ok]
  | .evWriteDataHandled => opRecord 0x52 []
  | .evWriteComplete ok => opRecord 0x53 [boolByte ok]
  | .mscReset => opRecord 0x54 []
  | .mscHaltCleared d => opRecord 0x55 [dirByte d]
  | .setupRequest p => opRecord 0x80 p.bytes
  | .completion k ok => opRecord 0x81 (natBytes k ++ [boolByte ok])
  | .setDeviceAddress a => opRecord 0x82 [a.setWidth 8]
  | .drvGetInfo l bs n wp => opRecord 0x90 (BitVec.ofNat 8 l.val :: le32 bs ++ natBytes n ++ [boolByte wp])
  | .drvUnitReady l r => opRecord 0x91 [BitVec.ofNat 8 l.val, boolByte r]
  | .drvStartStop l s e ok => opRecord 0x92 [BitVec.ofNat 8 l.val, boolByte s, boolByte e, boolByte ok]
  | .drvStartRead l lba n ok => opRecord 0x93 (BitVec.ofNat 8 l.val :: le32 lba ++ le16 n ++ [boolByte ok])
  | .drvStartWrite l lba n ok p cap k =>
      opRecord 0x94 (BitVec.ofNat 8 l.val :: le32 lba ++ le16 n ++ [boolByte ok] ++ natBytes p ++
        natBytes cap ++ natBytes k)
  | .drvBlockSent ok => opRecord 0x95 [boolByte ok]
  | .drvWriteBuffer k ok n => opRecord 0x96 (natBytes k ++ [boolByte ok] ++ natBytes n)
  | .hwOut e t payload => opRecord 0xE0 (hwOutByte e t :: natBytes payload.length ++ payload)
  | .hwIn e => opRecord 0xE1 [BitVec.ofNat 8 e.val]
  | .hwSetup payload => opRecord 0xE0 (0x20 :: natBytes payload.length ++ payload)
  | .cteSetup => ⟨.tc, [tcByte ⟨0, .setup⟩]⟩
  | .cteOut => ⟨.tc, [tcByte ⟨0, .out⟩]⟩
  | .cteIn => ⟨.tc, [tcByte ⟨0, .inp⟩]⟩
  | .mscOut => ⟨.tc, [tcByte ⟨c.mscOut, .out⟩]⟩
  | .mscIn => ⟨.tc, [tcByte ⟨c.mscIn, .inp⟩]⟩
  | .extTc e .out => ⟨.tc, [tcByte ⟨e, .out⟩]⟩
  | .extTc e .inp => ⟨.tc, [tcByte ⟨e, .inp⟩]⟩
  | .setup .wire p => ⟨.setupWire, p.bytes⟩
  | .setup .request p => ⟨.setupRequest, p.bytes⟩
  | .getDescriptor t x l n => requestRecord c.req.getDescriptor (t ++ x : BitVec (8 + 8)) l n
  | .setAddress v x => requestRecord c.req.setAddress v x 0
  | .setConfiguration v x => requestRecord c.req.setConfiguration v x 0
  | .clearFeatureEndpointHalt x => requestRecord c.req.clearFeature c.req.endpointHalt x 0
  | .setFeatureEndpointHalt x => requestRecord c.req.setFeature c.req.endpointHalt x 0
  | .bulkOnlyMassStorageReset => requestRecord c.req.mscReset 0 (c.mscIface.setWidth 16) 0
  | .getMaxLun v => requestRecord c.req.getMaxLun v (c.mscIface.setWidth 16) 1
  | .cbw packet => ⟨.cbw31, packet⟩
  | .csw t r st => ⟨.csw13, cswBytes t r st⟩
  | .testUnitReady => cdbRecord c .testUnitReady [0, 0, 0, 0, 0]
  | .requestSense => cdbRecord c .requestSense [0, 0, 0, 0, 0]
  | .inquiry => cdbRecord c .inquiry [0, 0, 0, 0, 0]
  | .modeSense6 => cdbRecord c .modeSense6 [0, 0, 0, 0, 0]
  | .startStopUnit s e =>
      cdbRecord c .startStopUnit [0, 0, 0, (0#6 ++ BitVec.ofBool e ++ BitVec.ofBool s : BitVec (6 + 1 + 1)), 0]
  | .readCapacity10 => cdbRecord c .readCapacity10 [0, 0, 0, 0, 0, 0, 0, 0, 0]
  | .read10 l n => cdbRecord c .read10 ([0] ++ be32 l ++ [0] ++ be16 n ++ [0])
  | .write10 l n => cdbRecord c .write10 ([0] ++ be32 l ++ [0] ++ be16 n ++ [0])
  | .scsiUnknown o => ⟨.cdb, [o, 0, 0, 0, 0, 0]⟩
  | .bdArmed e d k t n => bdRecord e d k true t false n
  | .bdStalled e d k n => bdRecord e d k true false true n
  | .bdReturned e d k t n => bdRecord e d k false t false n

/-! ### Words as the opcode table numbers them -/

/-- The bytes of the table's word: bit 0 is the least significant bit of the first byte (30_encoding.md
R80). -/
def tableBytes : Nat → Nat → List Byte
  | 0, _ => []
  | n + 1, w => BitVec.ofNat 8 w :: tableBytes n (w / 256)

/-- The bytes of a list followed by zeros, cut to `n`. -/
def padTo (n : Nat) (b : List Byte) : List Byte := (b ++ List.replicate n 0).take n

/-- The records a word of the table can stand for, by its width: the table does not say which format a
word is in, and an 8-bit word can be an operation code, a `TC` word or a SCSI operation code; a 16-bit word
is first a descriptor word if its reserved bits are zero, as in every `BDCTL` row (assumption 3). -/
def tableRecords (nbits w : Nat) : List InRecord :=
  let b := tableBytes ((nbits + 7) / 8) w
  if nbits ≤ 8 then [⟨.op, padTo 32 b⟩, ⟨.tc, padTo 1 b⟩, ⟨.cdb, padTo 16 b⟩]
  else if nbits ≤ 16 then
    if (le16At b 0).extractLsb' 10 3 = 0 then [⟨.bdctl, padTo 4 b⟩, ⟨.setupRequest, padTo 8 b⟩]
    else [⟨.setupRequest, padTo 8 b⟩, ⟨.bdctl, padTo 4 b⟩]
  else if le32At b 0 = cswSignature then [⟨.csw13, padTo 13 b⟩]
  else if le32At b 0 = cbwSignature then [⟨.cbw31, padTo 31 b⟩]
  else [⟨.setupRequest, padTo 8 b⟩]

/-- The record is one of a row the table gives a value of its own: not `EXT_TC` or `SCSI_UNKNOWN`, which
have the lowest priority there. -/
def isNamedRow (c : Config) (r : InRecord) : Bool :=
  match decode c r with
  | some (.extTc _ _) => false
  | some (.scsiUnknown _) => false
  | some _ => true
  | none => false

/-- The first of the records that is a named row's, else the first that decodes; a word that is no
instruction in any of its formats stands for its first record. -/
def tableRecord (c : Config) (nbits w : Nat) : InRecord :=
  match (tableRecords nbits w).find? (isNamedRow c) with
  | some r => r
  | none =>
      match (tableRecords nbits w).find? fun r => (decode c r).isSome with
      | some r => r
      | none => (tableRecords nbits w).headD ⟨.op, []⟩

/-- The instruction of a word of the opcode table. `MSC_OUT`, `MSC_IN` and the class requests are shown
there for `MSC_EP = 1` and `MSC_IFACE = 0`, which `Config.cfg1` has. -/
def decodeTableWord (nbits w : Nat) : Option Instr :=
  decode Config.cfg1 (tableRecord Config.cfg1 nbits w)

end Sys2Proof
end

