-- ==== Sys2Proof/Machine/State.lean ====
section
/-! DEFINITION. The state of the block (10_state.md), what the model keeps of its environment (the
configuration, the storage driver's standing answers, the inputs still to come, and the traces of what
the block and the channel showed), the ways a step can stop, and the state after `STACK_INIT`. -/

namespace Sys2Proof.Machine

/-- Who may modify a descriptor (10_state.md R21): `FW` the block, `HW` the channel. -/
inductive Owner where
  | fw
  | hw
  deriving DecidableEq, Repr

/-- `cte_state` (10_state.md R31); the codes 5 to 7 have no value here. -/
inductive CteState where
  | idle
  | setupReceived
  | dataIn
  | dataOut
  | status
  deriving DecidableEq, Repr

/-- `msc.state` (10_state.md R37); the codes 6 and 7 have no value here. -/
inductive MscState where
  | idle
  | dataIn
  | dataOut
  | stall
  | csw
  | nrr
  deriving DecidableEq, Repr

/-- Device intent (10_state.md R40) and host intent (30_encoding.md R96): `Dn`/`Hn`, `Di`/`Hi`,
`Do`/`Ho`. -/
inductive Intent where
  | none
  | inp
  | out
  deriving DecidableEq, Repr

/-- `msc.tx_src` (10_state.md R41). -/
inductive TxSrc where
  | internal
  | driver
  deriving DecidableEq, Repr

/-- `msc.op` (10_state.md R41). -/
inductive DrvOp where
  | none
  | read
  | write
  deriving DecidableEq, Repr

/-- Result codes of commands (30_encoding.md R91). -/
inductive ResultCode where
  | ok
  | errState
  | errOwner
  | errArg
  | errNotConfigured
  | errHalted
  deriving DecidableEq, Repr

/-- The number of a result code (30_encoding.md R91). -/
def ResultCode.num : ResultCode → Byte
  | .ok => 0
  | .errState => 1
  | .errOwner => 2
  | .errArg => 3
  | .errNotConfigured => 4
  | .errHalted => 5

/-- What a command returns to its caller: a result code (30_encoding.md R91), the count `QUERY_LEN`
returns (40_arbiter.md R106), or the triple `(D, dlen, ok)` a SCSI command rule returns (44_scsi.md). -/
inductive Reply where
  | code (r : ResultCode)
  | length (n : Nat)
  | eval (intent : Intent) (dlen : Nat) (ok : Bool)
  deriving DecidableEq, Repr

/-- The output events of the block, in the sense of `emit` (00_scope.md section 5): callbacks, and the
outputs and queries sent to the storage driver (30_encoding.md R89). -/
inductive Output where
  | setupRequest (p : SetupPacket)
  | completion (id : Nat) (ok : Bool)
  | setDeviceAddress (a : BitVec 7)
  | externalTc (e : EpNum) (d : Dir) (pid : Pid) (n : Nat)
  | drvBlockSent (ok : Bool)
  | drvWriteBuffer (cb : Nat) (ok : Bool) (nbytes : Nat)
  | drvGetInfo (lun : Lun)
  | drvUnitReady (lun : Lun)
  | drvStartStop (lun : Lun) (start eject : Bool)
  | drvStartRead (lun : Lun) (lba : BitVec 32) (blocks : BitVec 16)
  | drvStartWrite (lun : Lun) (lba : BitVec 32) (blocks : BitVec 16)
  deriving DecidableEq, Repr

/-- What the host sees on the wire at a step of the channel (20_memory.md R60, 40_arbiter.md R102 to
R105): the data packet of an IN transaction, the acknowledgement of an OUT or SETUP transaction, the
STALL and NAK handshakes, and no handshake at all (93_implementation_defined.md U3). -/
inductive WireEvent where
  | data (e : EpNum) (toggle : Bool) (bytes : List Byte)
  | ack (e : EpNum) (pid : Pid)
  | stall (e : EpNum) (d : Dir)
  | nak (e : EpNum) (d : Dir)
  | noHandshake (e : EpNum)
  deriving DecidableEq, Repr

/-- A transaction descriptor `BD[e][d][k]` (10_state.md R21). -/
structure Desc where
  addr : Nat
  count : Nat
  owner : Owner
  toggle : Bool
  stall : Bool
  deriving DecidableEq, Repr

/-- One endpoint direction: its record `ER[e][d]` (10_state.md R25), the arbiter's hidden indices and
unread bits (R28), and its descriptors (R20; index 1 exists only when double-buffered). `rearmed0` and
`rearmed1` are the model's own: the descriptor has been armed since its last completion was consumed, which
`QUERY_LEN` must know (40_arbiter.md R106; assumption 32). -/
structure EpDir where
  halted : Bool
  nextToggle : Bool
  activeIdx : Bool
  hwIdx : Bool
  rdIdx : Bool
  unread0 : Bool
  unread1 : Bool
  rearmed0 : Bool
  rearmed1 : Bool
  bd0 : Desc
  bd1 : Desc
  deriving DecidableEq, Repr

/-- Both directions of one endpoint number. -/
structure Ep where
  out : EpDir
  inp : EpDir
  deriving DecidableEq, Repr

/-- The ControlSession `cs` (10_state.md R33). -/
structure Session where
  valid : Bool
  direction : Dir
  remaining : Nat
  cursor : Nat
  cbValid : Bool
  cbId : Nat
  needsZlp : Bool
  returningShort : Bool
  lastLen : Nat
  deriving DecidableEq, Repr

/-- The device state `dev` (10_state.md R35). -/
structure Device where
  configurationValue : Byte
  pendingValid : Bool
  pendingAddress : BitVec 7
  address : BitVec 7
  deriving DecidableEq, Repr

/-- The transport's registers `msc` (10_state.md R37 to R42). -/
structure Msc where
  state : MscState
  currentTag : BitVec 32
  residue : Nat
  status : Byte
  requested : Nat
  transferred : Nat
  blockSize : Vector (BitVec 32) 16
  cbw : Cbw
  lun : Lun
  hostDir : Dir
  cbLen : Nat
  intent : Intent
  intentLen : Nat
  caseNo : Nat
  txSrc : TxSrc
  txPtr : Nat
  txRem : Nat
  txLast : Nat
  inArmed : Bool
  op : DrvOp
  resp : List Byte
  wbufPtr : Nat
  wbufCap : Nat
  wcb : Nat
  wbufFill : Nat
  awaitingDrain : Bool
  missed : Nat
  missedPtr : Nat
  missedLen : Nat
  csw : List Byte
  cswArmed : Bool
  deriving DecidableEq, Repr

/-- What the storage driver would answer, for one logical unit, to each of the five synchronous queries
(44_scsi.md R234, 43_msc_bot.md R212). No query is asked twice in one step, and the driver may change
its answers between any two steps, so standing answers are every driver. -/
structure DrvAnswers where
  blockSize : BitVec 32
  count : Nat
  writeProtect : Bool
  ready : Bool
  startStopOk : Bool
  startReadOk : Bool
  startWriteOk : Bool
  buffer : Nat
  capacity : Nat
  cb : Nat
  deriving DecidableEq, Repr

/-- What reaches the machine from outside, in the order it happens: an instruction record, or bytes that
the dispatcher or the storage driver writes to a buffer of its own (20_memory.md R60). -/
inductive Input where
  | record (r : InRecord)
  | memWrite (addr : Nat) (bytes : List Byte)
  deriving DecidableEq, Repr

/-- The ways a step stops with a fault: none. The failures the spec names are next states (60_exceptions.md),
and what it gives no meaning it refuses (93_implementation_defined.md). -/
inductive Fault where
  deriving DecidableEq, Repr

/-- The ways a step is refused: the spec gives the step no meaning. Every one is safe: the model stops
where the spec says a proof may assume that the step does not happen. -/
inductive Refusal where
  /-- An instruction with no meaning yet, by its mnemonic in the opcode table. Raised by `exec` only. -/
  | notModelled (mnemonic : String)
  /-- Raised by `step`: the record is no instruction (30_encoding.md R92, U2). -/
  | illegalRecord
  /-- Raised by every rule that reads or writes bytes of buffer memory beyond `2^ADDR_W`: no wrap-around is
  defined there, and the step is refused (20_memory.md R61, U8). -/
  | addressRange (addr n : Nat)
  /-- Raised by `step`: the configuration breaks 00_scope.md R9 or 20_memory.md R75 (U8). -/
  | badConfiguration
  /-- Raised by `ARM`: `require e < N_EP` (40_arbiter.md R100, U16). -/
  | endpointOutOfTable
  /-- Raised by `EV_TC` and the `TC` rows: the record named is not the head of `TCQ`
  (30_encoding.md R94). -/
  | notHeadOfQueue
  /-- Raised by the four storage-driver notifications when their `require` is false (U4). -/
  | notificationRequire
  /-- Raised by `MSC_OUT` in `DATA_OUT` when a packet is already held: `require msc.missed = 0`
  (43_msc_bot.md R202). -/
  | secondMissedPacket
  /-- Raised by `SEND_CSW`: `require msc.csw_armed = 0 and msc.in_armed = 0` (43_msc_bot.md R191). -/
  | cswRequire
  /-- Raised by `step`: the environment writes to a buffer that the channel or the block owns (20_memory.md
  R74; 70_reset_and_hazards.md R275, R277; U1). -/
  | foreignBufferWrite
  deriving DecidableEq, Repr

/-- The state. -/
structure State where
  /-- Configuration (00_scope.md R7), constant. -/
  cfg : Config
  /-- Descriptors and endpoint directory (10_state.md R20 to R28). -/
  eps : Vector Ep 16
  /-- `ep0_hold` (10_state.md R28). -/
  ep0Hold : Bool
  /-- `TCQ`, head first (10_state.md R29). -/
  tcq : List Tc
  /-- `tc_irq_en` (10_state.md R30). -/
  tcIrqEn : Bool
  /-- `cte_state` (10_state.md R31). -/
  cteState : CteState
  /-- `setup` (10_state.md R32). -/
  setup : SetupPacket
  /-- `cs` (10_state.md R33). -/
  cs : Session
  /-- `dev` (10_state.md R35). -/
  dev : Device
  /-- `msc` (10_state.md R37 to R42). -/
  msc : Msc
  /-- `sense` (10_state.md R43). -/
  sense : Sense
  /-- `Mem` (20_memory.md R60), in the canonical form of `Memory.wf`. -/
  mem : List Host.Cell
  /-- The output trace (00_scope.md section 5, `emit`), oldest first. -/
  outputs : List Output
  /-- What the last command returned (30_encoding.md R91). -/
  reply : Option Reply
  /-- What the host saw on the wire, oldest first (20_memory.md R60). The model's own. -/
  wire : List WireEvent
  /-- The storage driver's standing answers, by LUN (44_scsi.md R234). The model's own. -/
  drv : Vector DrvAnswers 16
  /-- The host is signalling a bus reset that the closed mask keeps from being taken (60_exceptions.md
  R250). The model's own. -/
  busResetPending : Bool
  /-- The (address, length) of the buffer the last disposition named (70_reset_and_hazards.md R277). The
  model's own. -/
  lentSession : Nat × Nat
  /-- The (address, length) of the last block `EV_BLOCK_READY` announced (70_reset_and_hazards.md R277). The
  model's own. -/
  lentBlock : Nat × Nat
  /-- What is still to happen (30_encoding.md R94: a run is a trace of steps). The model's own. -/
  inputs : List Input
  deriving DecidableEq, Repr

/-- What a rule answers. -/
abbrev Res := Host.Outcome State Fault Refusal

/-! ### Named updates -/

/-- Both directions of endpoint `e` replaced. -/
def State.setEp (s : State) (e : EpNum) (x : Ep) : State := { s with eps := s.eps.set e.val x e.isLt }
/-- The endpoint table replaced. -/
def State.setEps (s : State) (x : Vector Ep 16) : State := { s with eps := x }
/-- `ep0_hold <- b`. -/
def State.setHold (s : State) (b : Bool) : State := { s with ep0Hold := b }
/-- `TCQ <- q`. -/
def State.setTcq (s : State) (q : List Tc) : State := { s with tcq := q }
/-- `tc_irq_en <- b`. -/
def State.setIrq (s : State) (b : Bool) : State := { s with tcIrqEn := b }
/-- `cte_state <- x`. -/
def State.setCte (s : State) (x : CteState) : State := { s with cteState := x }
/-- `setup <- p`. -/
def State.setSetup (s : State) (p : SetupPacket) : State := { s with setup := p }
/-- `cs` replaced. -/
def State.setCs (s : State) (x : Session) : State := { s with cs := x }
/-- `dev` replaced. -/
def State.setDev (s : State) (x : Device) : State := { s with dev := x }
/-- `msc` replaced. -/
def State.setMsc (s : State) (x : Msc) : State := { s with msc := x }
/-- `sense` replaced. -/
def State.setSense (s : State) (x : Sense) : State := { s with sense := x }
/-- Buffer memory replaced. -/
def State.setMem (s : State) (m : List Host.Cell) : State := { s with mem := m }
/-- `emit o`. -/
def State.emit (s : State) (o : Output) : State := { s with outputs := s.outputs ++ [o] }
/-- The command returns `r`. -/
def State.answer (s : State) (r : Reply) : State := { s with reply := some r }
/-- The host sees `w`. -/
def State.show (s : State) (w : WireEvent) : State := { s with wire := s.wire ++ [w] }
/-- The driver's answers for a logical unit replaced. -/
def State.setDrv (s : State) (l : Lun) (x : DrvAnswers) : State :=
  { s with drv := s.drv.set l.val x l.isLt }
/-- The host's bus-reset signal held back, or taken. -/
def State.setBusReset (s : State) (b : Bool) : State := { s with busResetPending := b }
/-- The buffer a disposition names, on loan until the session ends. -/
def State.lendSession (s : State) (x : Nat × Nat) : State := { s with lentSession := x }
/-- The block a driver announces, on loan until it has been sent. -/
def State.lendBlock (s : State) (x : Nat × Nat) : State := { s with lentBlock := x }
/-- The inputs still to come. -/
def State.setInputs (s : State) (x : List Input) : State := { s with inputs := x }

/-! ### The state after `STACK_INIT` (10_state.md R46, first column)

The cells R46 calls unspecified hold zero, `OUT`, `none` or false here: DESIGN CHOICE (assumption 4). -/

/-- A descriptor nothing has armed. -/
def Desc.idle : Desc := ⟨0, 0, .fw, false, false⟩

/-- An endpoint direction after `EP_INIT`. -/
def EpDir.idle : EpDir :=
  ⟨false, false, false, false, false, false, false, false, false, Desc.idle, Desc.idle⟩

/-- No session. -/
def Session.none : Session := ⟨false, .out, 0, 0, false, 0, false, false, 0⟩

/-- A CBW latch nothing has written. -/
def Cbw.zero : Cbw := ⟨0, 0, 0, 0, 0, 0, Vector.replicate 16 0⟩

/-- The transport after initialisation. -/
def Msc.idle : Msc where
  state := .idle
  currentTag := 0
  residue := 0
  status := 0
  requested := 0
  transferred := 0
  blockSize := Vector.replicate 16 0
  cbw := Cbw.zero
  lun := 0
  hostDir := .out
  cbLen := 0
  intent := .none
  intentLen := 0
  caseNo := 0
  txSrc := .internal
  txPtr := 0
  txRem := 0
  txLast := 0
  inArmed := false
  op := .none
  resp := List.replicate 36 0
  wbufPtr := 0
  wbufCap := 0
  wcb := 0
  wbufFill := 0
  awaitingDrain := false
  missed := 0
  missedPtr := 0
  missedLen := 0
  csw := List.replicate 13 0
  cswArmed := false

/-- A driver that has offered nothing: it is not ready and starts nothing. DESIGN CHOICE (assumption
5). -/
def DrvAnswers.unready : DrvAnswers := ⟨0, 0, false, false, false, false, false, 0, 0, 0⟩

/-- The state after `STACK_INIT` under a configuration: endpoint 0 OUT is armed for the first SETUP
(10_state.md R46, 70_reset_and_hazards.md R270). -/
def State.initial (c : Config) : State where
  cfg := c
  eps := (Vector.replicate 16 ⟨EpDir.idle, EpDir.idle⟩).set 0
    ⟨{ EpDir.idle with
        activeIdx := c.pingpong 0 .out
        rearmed0 := true
        bd0 := ⟨c.epbuf 0 .out false, c.mps0, .hw, false, false⟩ }, EpDir.idle⟩
  ep0Hold := false
  tcq := []
  tcIrqEn := true
  cteState := .idle
  setup := ⟨0, 0, 0, 0, 0⟩
  cs := Session.none
  dev := ⟨0, false, 0, 0⟩
  msc := Msc.idle
  sense := ⟨0, 0⟩
  mem := []
  outputs := []
  reply := none
  wire := []
  drv := Vector.replicate 16 DrvAnswers.unready
  busResetPending := false
  lentSession := (0, 0)
  lentBlock := (0, 0)
  inputs := []

/-- The machine right after reset: `S0` of 95_test_vectors.md, under its configuration `CFG1`. -/
def State.reset : State := State.initial Config.cfg1

end Sys2Proof.Machine
end

