-- ==== Sys2Proof/Machine/Operands.lean ====
section
/-! DEFINITION. The operand forms: descriptor fields and the descriptor control word (10_state.md R21,
R22), endpoint records by number and direction, the sub-fields of a SETUP packet (30_encoding.md R82),
and the sub-fields of a CBW (R83, R84). -/

namespace Sys2Proof.Machine

/-! ### The descriptor control word (10_state.md R22) -/

/-- The control word of a descriptor: owner bit 15, toggle 14, stall 13, bits 12 to 10 zero, count 9 to
0. -/
def bdCtl (x : Desc) : BitVec 16 :=
  (BitVec.ofBool (x.owner == .hw) ++ BitVec.ofBool x.toggle ++ BitVec.ofBool x.stall ++ 0#3 ++
    BitVec.ofNat 10 x.count : BitVec (1 + 1 + 1 + 3 + 10))

/-- `bd_owner`. -/
def bdOwner (w : BitVec 16) : Owner := if w.getLsbD 15 then .hw else .fw

/-- `bd_toggle`. -/
def bdToggle (w : BitVec 16) : Bool := w.getLsbD 14

/-- `bd_stall`. -/
def bdStall (w : BitVec 16) : Bool := w.getLsbD 13

/-- `bd_count`. -/
def bdCount (w : BitVec 16) : Nat := (w.extractLsb' 0 10).toNat

/-- The descriptor with its control word written; the address is a separate word, and bits 12 to 10 are
ignored. -/
def Desc.withCtl (x : Desc) (w : BitVec 16) : Desc :=
  ⟨x.addr, bdCount w, bdOwner w, bdToggle w, bdStall w⟩

/-! ### Endpoint directions -/

/-- `BD[e][d][k]` of an endpoint direction. -/
def EpDir.bd (x : EpDir) (k : Bool) : Desc := if k then x.bd1 else x.bd0

/-- `BD[e][d][k]` replaced. -/
def EpDir.setBd (x : EpDir) (k : Bool) (b : Desc) : EpDir :=
  if k then { x with bd1 := b } else { x with bd0 := b }

/-- `unread[e][d][k]`. -/
def EpDir.unread (x : EpDir) (k : Bool) : Bool := if k then x.unread1 else x.unread0

/-- `unread[e][d][k] <- u`. -/
def EpDir.setUnread (x : EpDir) (k u : Bool) : EpDir :=
  if k then { x with unread1 := u } else { x with unread0 := u }

/-- `BD[e][d][k]` has been armed since its last completion was consumed (40_arbiter.md R106). -/
def EpDir.rearmed (x : EpDir) (k : Bool) : Bool := if k then x.rearmed1 else x.rearmed0

/-- The same bit written. -/
def EpDir.setRearmed (x : EpDir) (k r : Bool) : EpDir :=
  if k then { x with rearmed1 := r } else { x with rearmed0 := r }

/-- Endpoint `e` direction `d`. -/
def State.epDir (s : State) (e : EpNum) : Dir → EpDir
  | .out => (s.eps.get e).out
  | .inp => (s.eps.get e).inp

/-- One direction of an endpoint replaced. -/
def Ep.setDir (x : Ep) (d : Dir) (y : EpDir) : Ep :=
  match d with
  | .out => { x with out := y }
  | .inp => { x with inp := y }

/-- One direction of an endpoint. -/
def Ep.dir (x : Ep) : Dir → EpDir
  | .out => x.out
  | .inp => x.inp

/-- Endpoint `e` direction `d` replaced. -/
def State.setEpDir (s : State) (e : EpNum) (d : Dir) (y : EpDir) : State :=
  s.setEp e ((s.eps.get e).setDir d y)

/-- `PINGPONG[e][d]`. -/
def State.pp (s : State) (e : EpNum) (d : Dir) : Bool := s.cfg.pingpong e d

/-- `active_buffer_index`, 0 when not double-buffered (40_arbiter.md R100). -/
def State.active (s : State) (e : EpNum) (d : Dir) : Bool := s.pp e d && (s.epDir e d).activeIdx

/-- `hw_idx`, 0 when not double-buffered (10_state.md R28). -/
def State.hw (s : State) (e : EpNum) (d : Dir) : Bool := s.pp e d && (s.epDir e d).hwIdx

/-- `rd_idx`, 0 when not double-buffered (10_state.md R28). -/
def State.rd (s : State) (e : EpNum) (d : Dir) : Bool := s.pp e d && (s.epDir e d).rdIdx

/-- The indices of the descriptors that exist in a direction (10_state.md R20). -/
def State.indices (s : State) (e : EpNum) (d : Dir) : List Bool := if s.pp e d then [false, true] else [false]

/-- `(e, d)` is `(MSC_EP_IN, IN)` or `(MSC_EP_OUT, OUT)`. -/
def State.isMsc (s : State) (e : EpNum) : Dir → Bool
  | .out => e == s.cfg.mscOut
  | .inp => e == s.cfg.mscIn

/-! ### Sub-fields of a SETUP packet (30_encoding.md R82; general knowledge in the spec, 93 G1) -/

/-- `bmRequestType[7]`: the direction of the data stage. -/
def setupDirection (p : SetupPacket) : Dir := if p.bmRequestType.getLsbD 7 then .inp else .out

/-- `bmRequestType[6:5]`: 0 standard, 1 class, 2 vendor, 3 reserved. -/
def setupRequestType (p : SetupPacket) : BitVec 2 := p.bmRequestType.extractLsb' 5 2

/-- `bmRequestType[4:0]`: 0 device, 1 interface, 2 endpoint, 3 other. -/
def setupRecipient (p : SetupPacket) : BitVec 5 := p.bmRequestType.extractLsb' 0 5

/-- `wIndex[3:0]`: the endpoint number of an endpoint request. -/
def wIndexEp (w : BitVec 16) : EpNum := Fin.ofNat 16 (w.extractLsb' 0 4).toNat

/-- `wIndex[7]`: the direction of an endpoint request. -/
def wIndexDir (w : BitVec 16) : Dir := if w.getLsbD 7 then .inp else .out

/-- `wIndex[7:0]`: the interface number of an interface request. -/
def wIndexInterface (w : BitVec 16) : Byte := w.extractLsb' 0 8

/-! ### Sub-fields of a CBW (30_encoding.md R83, R84) -/

/-- `bmCBWFlags[7]`: the host's direction. -/
def cbwDir (w : Cbw) : Dir := if w.flags.getLsbD 7 then .inp else .out

/-- `bCBWLUN[3:0]`; bits 7 to 4 are ignored. -/
def cbwLun (w : Cbw) : Lun := Fin.ofNat 16 (w.lun.extractLsb' 0 4).toNat

/-- `bCBWCBLength[4:0]`, five bits (90_conflicts.md C2); bits 7 to 5 are ignored. -/
def cbwCbLength (w : Cbw) : Nat := (w.cbLength.extractLsb' 0 5).toNat

end Sys2Proof.Machine
end

