-- ==== Sys2Proof/Machine/Flags.lean ====
section
/-! DEFINITION. The flag and case computations: data toggles (40_arbiter.md R100, R108), the short and
zero-length-packet flags of a control IN stage (41_control_engine.md R123, R126), the validity of a CBW
(43_msc_bot.md R172), host intent (30_encoding.md R96), the thirteen cases (R176) and the residue
(00_scope.md R10). -/

namespace Sys2Proof.Machine

/-- The number of descriptors of `(e, d)` owned by the channel: `p` of 40_arbiter.md R100. -/
def State.armedCount (s : State) (e : EpNum) (d : Dir) : Nat :=
  ((s.indices e d).filter fun k => ((s.epDir e d).bd k).owner == .hw).length

/-- The number of unread completions of `(e, d)`: `u` of 40_arbiter.md R100. -/
def State.unreadCount (s : State) (e : EpNum) (d : Dir) : Nat :=
  ((s.indices e d).filter fun k => (s.epDir e d).unread k).length

/-- The toggle an arm writes: `next_toggle xor ((p + u) mod 2)` (40_arbiter.md R100). -/
def State.armToggle (s : State) (e : EpNum) (d : Dir) : Bool :=
  (s.epDir e d).nextToggle ^^ decide ((s.armedCount e d + s.unreadCount e d) % 2 = 1)

/-- `next_toggle` after a consumed completion: inverted for IN and OUT, kept for SETUP (40_arbiter.md
R107, R108). -/
def toggleAfter (pid : Pid) (t : Bool) : Bool :=
  match pid with
  | .setup => t
  | .out => !t
  | .inp => !t

/-- `cs.returning_short`: fewer bytes than the host asked for (41_control_engine.md R123). -/
def returningShort (avail req : Nat) : Bool := decide (min avail req < req)

/-- A chunk of `n` bytes that leaves `remaining` bytes calls for a trailing zero-length packet
(41_control_engine.md R124, R126). -/
def zlpNeeded (mps0 n remaining : Nat) (short : Bool) : Bool :=
  decide (remaining = 0) && decide (n = mps0) && short

/-- A bulk OUT packet of `n` bytes with fields `w` is a valid CBW (43_msc_bot.md R172). -/
def cbwValid (c : Config) (n : Nat) (w : Cbw) : Bool :=
  decide (n = 31) && (w.signature == cbwSignature) && (w.flags.extractLsb' 0 7 == 0) &&
    decide ((cbwLun w).val ≤ c.maxLun.val) && decide (1 ≤ cbwCbLength w) && decide (cbwCbLength w ≤ 16)

/-- Host intent: `Hn` when the length is zero, else by the flag bit (30_encoding.md R96). -/
def hostIntent (h : Nat) (d : Dir) : Intent :=
  if h = 0 then .none else match d with | .inp => .inp | .out => .out

/-- The thirteen cases (43_msc_bot.md R176). -/
inductive BotCase where
  | c1 | c2 | c3 | c4 | c5 | c6 | c7 | c8 | c9 | c10 | c11 | c12 | c13
  deriving DecidableEq, Repr

/-- The number of a case, as `msc.case` holds it (10_state.md R40). -/
def BotCase.num : BotCase → Nat
  | .c1 => 1 | .c2 => 2 | .c3 => 3 | .c4 => 4 | .c5 => 5 | .c6 => 6 | .c7 => 7
  | .c8 => 8 | .c9 => 9 | .c10 => 10 | .c11 => 11 | .c12 => 12 | .c13 => 13

/-- The case of host intent `H` with length `h` and device intent `D` with length `dlen`
(43_msc_bot.md R176). -/
def selectCase (H D : Intent) (h dlen : Nat) : BotCase :=
  match H, D with
  | .none, .none => .c1
  | .none, .inp => .c2
  | .none, .out => .c3
  | .inp, .none => .c4
  | .inp, .inp => if h > dlen then .c5 else if h = dlen then .c6 else .c7
  | .inp, .out => .c8
  | .out, .none => .c9
  | .out, .inp => .c10
  | .out, .out => if h > dlen then .c11 else if h = dlen then .c12 else .c13

/-- `residue = max(0, requested - transferred)` (00_scope.md R10); subtraction of naturals clamps. -/
def residueOf (requested transferred : Nat) : Nat := requested - transferred

/-- `bCSWStatus` values (30_encoding.md R85). -/
def passed : Byte := 0
/-- `FAILED`. -/
def failed : Byte := 1
/-- `PHASE_ERROR`. -/
def phaseError : Byte := 2

end Sys2Proof.Machine
end

