-- ==== Sys2Proof/Machine/Ops.lean ====
section
/-! DEFINITION. The operations the rules share: buffer memory (20_memory.md), the arbiter's primitives
(40_arbiter.md R100, R109, R111), the session and transport helpers (41_control_engine.md R122, R138;
43_msc_bot.md R201, R208, R209, R213), and the failure entries E1, E3, E4, E5, E6 of 60_exceptions.md as
one operation `raise`, with the ways out of them beside it. -/

namespace Sys2Proof.Machine

/-! ### Sequencing -/

/-- The rest of a rule, run on the state the first part leaves; a stop ends the rule. -/
def thenRun (r : Res) (f : State → Res) : Res :=
  match r with
  | .next s => f s
  | .fault x => .fault x
  | .refused x => .refused x

/-! ### Buffer memory

`Mem` is a list of (address, byte) pairs with strictly rising addresses and no entry equal to what an
unlisted address reads as. -/

/-- What a byte nothing has written reads as. DESIGN CHOICE (assumption 6): the spec leaves `Mem`
unspecified after initialisation (10_state.md R46). -/
def unlistedByte : Byte := 0

/-- The canonical form: strictly rising addresses, no entry equal to `unlistedByte`. -/
abbrev Memory.wf (m : List Host.Cell) : Prop :=
  (m.map Prod.fst).Pairwise (· < ·) ∧ ∀ c ∈ m, c.2 ≠ unlistedByte

/-- The byte at an address. -/
def Memory.read : List Host.Cell → Nat → Byte
  | [], _ => unlistedByte
  | (a, b) :: rest, x => if x < a then unlistedByte else if x = a then b else Memory.read rest x

/-- A byte written; the canonical form is kept. -/
def Memory.write : List Host.Cell → Nat → Byte → List Host.Cell
  | [], x, v => if v = unlistedByte then [] else [(x, v)]
  | (a, b) :: rest, x, v =>
      if x < a then (if v = unlistedByte then (a, b) :: rest else (x, v) :: (a, b) :: rest)
      else if x = a then (if v = unlistedByte then rest else (a, v) :: rest)
      else (a, b) :: Memory.write rest x v

/-- `n` bytes from an address, lowest address first. -/
def Memory.readBytes (m : List Host.Cell) : Nat → Nat → List Byte
  | _, 0 => []
  | a, n + 1 => Memory.read m a :: Memory.readBytes m (a + 1) n

/-- Bytes stored from an address, the first at the lowest. -/
def Memory.writeBytes (m : List Host.Cell) : Nat → List Byte → List Host.Cell
  | _, [] => m
  | a, b :: bs => Memory.writeBytes (Memory.write m a b) (a + 1) bs

/-- The `n` bytes at `addr` are in the address space (20_memory.md R61). -/
def State.inSpace (s : State) (addr n : Nat) : Bool := decide (addr + n ≤ s.cfg.memSize)

/-- The byte of `Mem` at an address. -/
def State.byte (s : State) (a : Nat) : Byte := Memory.read s.mem a

/-- The bytes `MemRead(addr, n)` gives. -/
def State.bytes (s : State) (addr n : Nat) : List Byte := Memory.readBytes s.mem addr n

/-- `MemRead(addr, n)`, and the rest of the rule on the bytes read. -/
def readMem (s : State) (addr n : Nat) (f : List Byte → Res) : Res :=
  if s.inSpace addr n then f (s.bytes addr n) else .refused (.addressRange addr n)

/-- `MemWrite(addr, n, bytes)` with `n` the number of bytes. -/
def writeMem (s : State) (addr : Nat) (bs : List Byte) : Res :=
  if s.inSpace addr bs.length then .next (s.setMem (Memory.writeBytes s.mem addr bs))
  else .refused (.addressRange addr bs.length)

/-- `MemCopy(dst, src, n)`; `n = 0` does nothing (00_scope.md section 5). -/
def copyMem (s : State) (dst src n : Nat) : Res :=
  if n = 0 then .next s else readMem s src n fun bs => writeMem s dst bs

/-! ### Endpoint records -/

/-- Endpoint `e` direction `d` updated by `f`. -/
def State.onDir (s : State) (e : EpNum) (d : Dir) (f : EpDir → EpDir) : State :=
  s.setEpDir e d (f (s.epDir e d))

/-- The device is configured (10_state.md R36). -/
def State.configured (s : State) : Bool := s.dev.configurationValue != 0

/-- The gate of 10_state.md R36: an endpoint above 0 while the device is not configured. -/
def State.gated (s : State) (e : EpNum) : Bool := decide (e ≠ 0) && !s.configured

/-! ### ARM (40_arbiter.md R100) -/

/-- The result code of `ARM(e, d, addr, n)`, for `e < N_EP`. -/
def armResult (s : State) (e : EpNum) (d : Dir) (n : Nat) : ResultCode :=
  if s.gated e then .errNotConfigured
  else if n > s.cfg.mps e d then .errArg
  else if (s.epDir e d).halted then .errHalted
  else if ((s.epDir e d).bd (s.active e d)).owner = .hw ∨ (s.epDir e d).unread (s.active e d) then .errOwner
  else .ok

/-- What `ARM` writes when its result is `OK`. -/
def armStore (s : State) (e : EpNum) (d : Dir) (addr n : Nat) : State :=
  s.onDir e d fun x =>
    let k := s.active e d
    let x := (x.setBd k ⟨addr, n, .hw, s.armToggle e d, false⟩).setRearmed k true
    if s.pp e d then { x with activeIdx := !k } else x

/-- `ARM` inside another rule: a result other than `OK` changes nothing (30_encoding.md R91). -/
def armIn (s : State) (e : EpNum) (d : Dir) (addr n : Nat) : State :=
  if armResult s e d n = .ok then armStore s e d addr n else s

/-- `ARM(e, d, EPBUF[e][d][active_buffer_index], n)`: the arm every rule of 41 and 43 makes. -/
def armBuf (s : State) (e : EpNum) (d : Dir) (n : Nat) : State :=
  armIn s e d (s.cfg.epbuf e d (s.active e d)) n

/-! ### cancel (40_arbiter.md R111) -/

/-- A descriptor the channel gives back without a transaction. -/
def Desc.giveBack (b : Desc) : Desc := if b.owner = .hw then { b with owner := .fw, stall := false } else b

/-- `cancel` on one endpoint direction. -/
def EpDir.cancel (x : EpDir) : EpDir :=
  { x with bd0 := x.bd0.giveBack, bd1 := x.bd1.giveBack, activeIdx := x.hwIdx }

/-- `cancel(e, d)`. -/
def cancel (s : State) (e : EpNum) (d : Dir) : State := s.onDir e d EpDir.cancel

/-! ### SET_HALT (40_arbiter.md R109) -/

/-- Who gives a `SET_HALT`: a command, a rule of 41_control_engine.md, or a rule of 43_msc_bot.md. -/
inductive Caller where
  | command
  | cte
  | msc
  deriving DecidableEq, Repr

/-- The transport is moving data. -/
def State.inDataPhase (s : State) : Bool := decide (s.msc.state = .dataIn ∨ s.msc.state = .dataOut)

/-- The result code of `SET_HALT`. -/
def setHaltResult (s : State) (by_ : Caller) (e : EpNum) (d : Dir) : ResultCode :=
  if s.cfg.nEp ≤ e.val then .errArg
  else if e = 0 ∧ by_ ≠ .cte then .errArg
  else if s.gated e then .errNotConfigured
  else if by_ ≠ .msc ∧ s.isMsc e d ∧ s.inDataPhase then .errState
  else .ok

/-- `TCQ` without the entries of `(e, d)`. -/
def dropTc (q : List Tc) (e : EpNum) (d : Dir) : List Tc := q.filter fun t => !(t.e == e && t.d == d)

/-- The entries of `(e, d)` removed from `TCQ`, and its unread bits cleared. -/
def dropCompletions (s : State) (e : EpNum) (d : Dir) : State :=
  (s.setTcq (dropTc s.tcq e d)).onDir e d fun x => { x with unread0 := false, unread1 := false }

/-- The stalled descriptor and the halted record `SET_HALT` leaves. -/
def haltStore (s : State) (e : EpNum) (d : Dir) : State :=
  let k := s.hw e d
  s.onDir e d fun x =>
    let x := ({ x with rdIdx := k }.setBd k ⟨s.cfg.epbuf e d k, s.cfg.mps e d, .hw, false, true⟩).setRearmed k true
    { x with halted := true, activeIdx := if s.pp e d then k else x.activeIdx }

/-- A halt the host made on bulk IN withdraws an armed CSW (43_msc_bot.md R193). -/
def hostHalt (s : State) (e : EpNum) (d : Dir) : State :=
  if e = s.cfg.mscIn ∧ d = .inp ∧ s.msc.cswArmed then s.setMsc { s.msc with cswArmed := false } else s

/-- `SET_HALT` when its result is `OK`: nothing if the direction is already halted. -/
def setHaltStore (s : State) (by_ : Caller) (e : EpNum) (d : Dir) : State :=
  if (s.epDir e d).halted then s
  else
    let s1 := haltStore (cancel (dropCompletions s e d) e d) e d
    if by_ ≠ .msc ∧ s.isMsc e d then hostHalt s1 e d else s1

/-- `SET_HALT` inside another rule. -/
def setHaltIn (s : State) (by_ : Caller) (e : EpNum) (d : Dir) : State :=
  if setHaltResult s by_ e d = .ok then setHaltStore s by_ e d else s

/-! ### The session (10_state.md R34) -/

/-- The session destroyed. -/
def destroySession (s : State) : State :=
  s.setCs { s.cs with
    valid := false, cbValid := false, needsZlp := false, returningShort := false, remaining := 0 }

/-- `abort_session()` (41_control_engine.md R122). -/
def abortSession (s : State) : State :=
  let s1 := if s.cs.cbValid then s.emit (.completion s.cs.cbId false) else s
  (destroySession (s1.setDev { s1.dev with pendingValid := false })).setCte .idle

/-- `complete_session()` (41_control_engine.md R138). -/
def completeSession (s : State) : State :=
  let s1 := if s.cs.cbValid then s.emit (.completion s.cs.cbId true) else s
  let s2 :=
    if s1.dev.pendingValid then
      (s1.setDev { s1.dev with address := s1.dev.pendingAddress, pendingValid := false }).emit
        (.setDeviceAddress s1.dev.pendingAddress)
    else s1
  (destroySession s2).setCte .idle

/-- Endpoint 0 OUT armed with capacity `MPS0` (41_control_engine.md R139). -/
def armEp0Out (s : State) : State := armBuf s 0 .out s.cfg.mps0

/-- A zero-length packet armed on endpoint 0 IN. -/
def armEp0Zlp (s : State) : State := armBuf s 0 .inp 0

/-! ### The transport's helpers -/

/-- The transport's fields that R213 of 43_msc_bot.md clears. -/
def Msc.clearTransient (m : Msc) : Msc :=
  { m with
    currentTag := 0, residue := 0, requested := 0, transferred := 0, intentLen := 0, txRem := 0
    txLast := 0, txPtr := 0, wbufFill := 0, missed := 0, missedLen := 0, status := passed
    intent := .none, caseNo := 0, op := .none, txSrc := .internal, inArmed := false, cswArmed := false
    awaitingDrain := false }

/-- The transient fields cleared and `msc.state` set. -/
def toMscState (s : State) (x : MscState) : State :=
  s.setMsc { s.msc.clearTransient with state := x }

/-- Every transient field of 10_state.md R38 at the value R46 gives it after either reset: the fields
43_msc_bot.md R213 clears, and the ones it keeps otherwise (`msc.cbw`, `msc.resp` and `msc.csw` keep their
bits). -/
def Msc.resetTransient (m : Msc) : Msc :=
  { m.clearTransient with
    lun := 0, hostDir := .out, cbLen := 0, wbufPtr := 0, wbufCap := 0, wcb := 0, missedPtr := 0 }

/-- The transport after `STACK_INIT` or `BUS_RESET` (10_state.md R46). -/
def resetMsc (s : State) : State := s.setMsc { s.msc.resetTransient with state := .idle }

/-- `unwind()` (43_msc_bot.md R209). -/
def unwind (s : State) : State :=
  let s1 := match s.msc.op with
    | .write => s.emit (.drvWriteBuffer s.msc.wcb false s.msc.wbufFill)
    | .read => s.emit (.drvBlockSent false)
    | .none => s
  s1.setMsc { s1.msc with op := .none }

/-- No descriptor of `(e, d)` is owned by the channel or unread. -/
def State.quiet (s : State) (e : EpNum) (d : Dir) : Bool :=
  (s.indices e d).all fun k => (((s.epDir e d).bd k).owner == .fw) && !(s.epDir e d).unread k

/-- `arm_out()` (43_msc_bot.md R208). -/
def armOut (s : State) : State :=
  let eo := s.cfg.mscOut
  if (s.epDir eo .out).halted = false ∧ s.quiet eo .out then armBuf s eo .out (s.cfg.mps eo .out) else s

/-- `flush(e, d)` (43_msc_bot.md R208). -/
def flush (s : State) (e : EpNum) (d : Dir) : State :=
  let s1 := dropCompletions s e d
  let s2 := if (s1.epDir e d).halted then s1 else cancel s1 e d
  s2.onDir e d fun x => { x with rdIdx := x.hwIdx }

/-- `stall(dir)` (43_msc_bot.md R201). -/
def stallMsc (s : State) (d : Dir) : State :=
  let s1 := match d with
    | .inp => setHaltIn s .msc s.cfg.mscIn .inp
    | .out => setHaltIn s .msc s.cfg.mscOut .out
  s1.setMsc { s1.msc with state := .stall }

/-- Status and residue written, then `stall(dir)`: the common form of cases 4, 7 to 11 and 13. -/
def stallWith (s : State) (status : Byte) (residue : Nat) (d : Dir) : State :=
  stallMsc (s.setMsc { s.msc with status := status, residue := residue }) d

/-! ### Failures (60_exceptions.md section 1)

E2 is the case rules of 43_msc_bot.md themselves, and E7 is a result code with no state change. -/

/-- The failures that have an entry. -/
inductive Failure where
  /-- E1 `BadCbw` (R241). -/
  | badCbw
  /-- E3 `MediumError` (R243): what every raising rule of it records. -/
  | mediumError (reason : SenseReason)
  /-- E4 `LocalProtocol` on endpoint 0 (R244). -/
  | localProtocolEp0
  /-- E4 `LocalProtocol` of the transport (R244). -/
  | localProtocolMsc
  /-- E5 `UnrecognizedRequest` (R245), with the length of the SETUP transaction. -/
  | unrecognizedRequest (nSetup : Nat)
  /-- E6 `SessionAbort` (R246). -/
  | sessionAbort
  deriving DecidableEq, Repr

/-- Both bulk endpoints halted by the transport (43_msc_bot.md R173). -/
def haltBoth (s : State) : State :=
  let s1 := setHaltIn s .msc s.cfg.mscIn .inp
  setHaltIn s1 .msc s1.cfg.mscOut .out

/-- Both directions of endpoint 0 halted by the engine. -/
def haltEp0 (s : State) : State := setHaltIn (setHaltIn s .cte 0 .inp) .cte 0 .out

/-- `REJECT`'s body (41_control_engine.md R135). -/
def rejectBody (s : State) (nSetup : Nat) : State :=
  let s1 := s.setHold false
  let s2 :=
    if nSetup = 8 ∧ setupDirection s.setup = .inp ∧ s.setup.wLength ≠ 0 then
      armEp0Out (setHaltIn s1 .cte 0 .inp)
    else haltEp0 s1
  (destroySession s2).setCte .idle

/-- `raise X`: the failure-entry rule of a failure. -/
def raise (s : State) : Failure → State
  | .badCbw => toMscState (haltBoth (unwind s)) .nrr
  | .mediumError r => (s.setSense (s.cfg.sense r)).setMsc { s.msc with status := failed }
  | .localProtocolEp0 => abortSession (haltEp0 s)
  | .localProtocolMsc => stallWith (unwind s) phaseError (residueOf s.msc.requested s.msc.transferred) .out
  | .unrecognizedRequest n => rejectBody s n
  | .sessionAbort => abortSession s

/-! ### The ways out of a failure (60_exceptions.md R260) -/

/-- `MSC_RESET` when the device is configured: the only way out of E1 (43_msc_bot.md R207). -/
def mscResetBody (s : State) : State :=
  let s1 := flush (flush (unwind s) s.cfg.mscIn .inp) s.cfg.mscOut .out
  let s2 := toMscState s1 .idle
  if (s2.epDir s2.cfg.mscOut .out).halted then s2 else armOut s2

/-- A halted direction released: the channel gives the stalled descriptor back with no completion
signal, and the next toggle is 0 (40_arbiter.md R110). -/
def clearHaltStore (s : State) (e : EpNum) (d : Dir) : State :=
  let k := s.hw e d
  s.onDir e d fun x =>
    { x.setBd k { x.bd k with stall := false, owner := .fw } with halted := false, nextToggle := false }

/-- A halt of endpoint 0 ended by the next SETUP (40_arbiter.md R104): the stalled descriptor is now an armed
one. Where the direction is double-buffered the next to arm is therefore the other, as after every arm (R100), and
not the stalled one `SET_HALT` had set it to: R104 does not write `active_buffer_index`, but 10_state.md R47 and
R117 require it. DEDUCED (assumption 37). -/
def endEp0Halt (s : State) (d : Dir) : State :=
  if (s.epDir 0 d).halted then
    let k := s.hw 0 d
    s.onDir 0 d fun x =>
      { x.setBd k { x.bd k with stall := false } with
        halted := false, activeIdx := if s.pp 0 d then !k else x.activeIdx }
  else s

end Sys2Proof.Machine
end

