-- ==== Sys2Proof/Machine/Control.lean ====
section
/-! DEFINITION. The Control Transfer Engine: its commands `START_CONTROL_RETURN`, `START_RECEIVE`,
`ACCEPT`, `REJECT`, and the handlers of endpoint-0 completions (41_control_engine.md). -/

namespace Sys2Proof.Machine

/-! ### Control IN -/

/-- `send_chunk()` (R124). -/
def sendChunk (s : State) : Res :=
  let n := min s.cs.remaining s.cfg.mps0
  let k := s.active 0 .inp
  thenRun (copyMem s (s.cfg.epbuf 0 .inp k) s.cs.cursor n) fun s1 =>
    let s2 := armIn s1 0 .inp (s1.cfg.epbuf 0 .inp k) n
    let left := s2.cs.remaining - n
    .next (s2.setCs { s2.cs with
      cursor := s2.cs.cursor + n
      remaining := left
      lastLen := n
      needsZlp := s2.cs.needsZlp || zlpNeeded s2.cfg.mps0 n left s2.cs.returningShort })

/-- `ACCEPT(cb)` in `SETUP_RECEIVED` (R134). It lends no buffer; nor does `START_CONTROL_RETURN` with `req = 0`,
which performs it (R123) and never reads the `(ptr, avail)` it names: DESIGN CHOICE (assumption 36). -/
def acceptBody (s : State) (cb : Option Nat) : State :=
  let s1 := s.setCs { s.cs with
    direction := .out
    remaining := 0
    cbValid := cb.isSome
    cbId := cb.getD s.cs.cbId }
  armEp0Out (armEp0Zlp (((s1.setCte .status).setHold false).lendSession (0, 0)))

/-- `START_CONTROL_RETURN(ptr, avail, req)` in `SETUP_RECEIVED` with `0 < req <= 65535` (R123). -/
def controlReturnBody (s : State) (ptr avail req : Nat) : Res :=
  let s1 := ((s.setCs { s.cs with
    direction := .inp
    cursor := ptr
    remaining := min avail req
    returningShort := returningShort avail req
    cbValid := false
    needsZlp := false }).setCte .dataIn).lendSession (ptr, avail)
  thenRun (sendChunk s1) fun s2 => .next ((armEp0Out s2).setHold false)

/-- `START_RECEIVE(buf, expected, cb)` in `SETUP_RECEIVED` with `expected <= 65535` (R129). -/
def receiveBody (s : State) (buf expected cb : Nat) : State :=
  let s1 := ((s.setCs { s.cs with
    direction := .out, cursor := buf, remaining := expected, cbValid := true, cbId := cb }).setHold
      false).lendSession (buf, expected)
  if expected = 0 then armEp0Out (armEp0Zlp (s1.setCte .status))
  else armEp0Out (s1.setCte .dataOut)

/-! ### The disposition commands -/

/-- The command returns a result code and changes nothing else (30_encoding.md R91). -/
def answerCode (s : State) (r : ResultCode) : Res := .next (s.answer (.code r))

/-- A rule's next state with the result `OK`. -/
def answerOk (r : Res) : Res := thenRun r fun s => answerCode s .ok

/-- `START_CONTROL_RETURN` (R123). -/
def execStartControlReturn (ptr avail req : Nat) (s : State) : Res :=
  if s.cteState ≠ .setupReceived then answerCode s .errState
  else if req > 65535 then answerCode s .errArg
  else if req = 0 then answerCode (acceptBody s none) .ok
  else answerOk (controlReturnBody s ptr avail req)

/-- `START_RECEIVE` (R129). -/
def execStartReceive (buf expected cb : Nat) (s : State) : Res :=
  if s.cteState ≠ .setupReceived then answerCode s .errState
  else if expected > 65535 then answerCode s .errArg
  else answerCode (receiveBody s buf expected cb) .ok

/-- `ACCEPT` (R134). -/
def execAccept (cb : Option Nat) (s : State) : Res :=
  if s.cteState ≠ .setupReceived then answerCode s .errState
  else answerCode (acceptBody s cb) .ok

/-- `REJECT` (R135). The SETUP transaction was 8 bytes long: a shorter or longer one was rejected in the
step that consumed it (R121). -/
def execReject (s : State) : Res :=
  if s.cteState ≠ .setupReceived then answerCode s .errState
  else answerCode (raise s (.unrecognizedRequest 8)) .ok

/-! ### Handlers of endpoint-0 completions -/

/-- The session a SETUP creates: `cs.valid <- 1`, every other field cleared (10_state.md R34). -/
def freshSession : Session := { Session.none with valid := true }

/-- What `CTE_SETUP` does before it looks at the packet (R121). -/
def setupArrived (s : State) : State :=
  let s1 := if s.cteState ≠ .idle then raise s .sessionAbort else s
  let s2 := cancel s1 0 .inp
  let s3 := s2.onDir 0 .inp fun x => { x with nextToggle := true }
  let s4 := s3.onDir 0 .out fun x => { x with nextToggle := true }
  (s4.setCs freshSession).setCte .setupReceived

/-- `CTE_SETUP` (R121). -/
def onCteSetup (s : State) (n buf : Nat) : Res :=
  let s1 := setupArrived s
  if n ≠ 8 then .next (raise s1 (.unrecognizedRequest n))
  else readMem s1 buf 8 fun b =>
    let p := SetupPacket.parse b
    .next (((s1.setSetup p).setCs { s1.cs with direction := setupDirection p }).emit (.setupRequest p))

/-- `CTE_IN` (R125, R133, R137). -/
def onCteIn (s : State) : Res :=
  match s.cteState with
  | .dataIn =>
      if s.cs.remaining > 0 then sendChunk s
      else if s.cs.needsZlp then
        let s1 := armEp0Zlp s
        .next (s1.setCs { s1.cs with needsZlp := false, lastLen := 0 })
      else .next (s.setCte .status)
  | .status => if s.cs.direction = .out then .next (completeSession s) else .next s
  | .idle => .next s
  | .setupReceived => .next s
  | .dataOut => .next s

/-- `CTE_OUT` in `DATA_OUT` (R130). -/
def onDataOut (s : State) (n buf : Nat) : Res :=
  if n > s.cs.remaining then .next (raise s .localProtocolEp0)
  else
    thenRun (copyMem s s.cs.cursor buf n) fun s1 =>
      let s2 := s1.setCs { s1.cs with cursor := s1.cs.cursor + n, remaining := s1.cs.remaining - n }
      let s3 := armEp0Out s2
      if n < s3.cfg.mps0 ∨ s3.cs.remaining = 0 then .next (armEp0Zlp (s3.setCte .status)) else .next s3

/-- `CTE_OUT` (R128, R130, R136, R137). In `SETUP_RECEIVED` R137 says it cannot occur, because endpoint 0 is
held; a bare `EP_INIT` there ends the hold and arms OUT, so it can: the completion is consumed, nothing more
happens, and OUT stays unarmed until the disposition. DESIGN CHOICE (assumption 33). -/
def onCteOut (s : State) (n buf : Nat) : Res :=
  match s.cteState with
  | .dataOut => onDataOut s n buf
  | .dataIn =>
      if n = 0 then .next (armEp0Out (raise (cancel s 0 .inp) .sessionAbort))
      else .next (raise s .localProtocolEp0)
  | .status =>
      if n = 0 then
        if s.cs.direction = .inp then .next (armEp0Out (completeSession s)) else .next (armEp0Out s)
      else .next (raise s .localProtocolEp0)
  | .idle => .next (armEp0Out s)
  | .setupReceived => .next s

end Sys2Proof.Machine
end

