-- ==== Sys2Proof/Machine/Scsi.lean ====
section
/-! DEFINITION. The SCSI command dispatcher (44_scsi.md): the evaluator `eval` of a command, the start of
the storage operations, and the queries of the storage driver. A `CDB` row executed by itself runs its
command rule, which returns `(D, dlen, ok)`. -/

namespace Sys2Proof.Machine

/-! ### Queries (R234): the request leaves the block, and the driver's standing answer comes back -/

/-- The driver's standing answers for a logical unit. -/
def State.drvOf (s : State) (l : Lun) : DrvAnswers := s.drv.get l

/-- `DrvUnitReady(lun)`. -/
def askReady (s : State) (l : Lun) : State := s.emit (.drvUnitReady l)

/-- `DrvGetInfo(lun)`. -/
def askInfo (s : State) (l : Lun) : State := s.emit (.drvGetInfo l)

/-- `msc.block_size[lun] <- bs` (R232). -/
def cacheBlockSize (s : State) (l : Lun) (bs : BitVec 32) : State :=
  s.setMsc { s.msc with blockSize := s.msc.blockSize.set l.val bs l.isLt }

/-! ### The evaluator -/

/-- What `eval` returns: the state it leaves, and `(D, dlen, ok)` (43_msc_bot.md R175). -/
structure EvalOut where
  s : State
  intent : Intent
  dlen : Nat
  ok : Bool
  deriving DecidableEq, Repr

/-- `fail(reason)` (R230): the sense is latched, and the intent is `Dn`. -/
def evalFail (s : State) (r : SenseReason) : EvalOut :=
  ⟨s.setSense (s.cfg.sense r), .none, 0, false⟩

/-- A response written at the start of `msc.resp`, the rest of which is kept. -/
def respond (s : State) (b : List Byte) : State :=
  s.setMsc { s.msc with resp := b ++ s.msc.resp.drop b.length, txSrc := .internal }

/-- `INQUIRY` (R221). -/
def evalInquiry (s : State) : EvalOut := ⟨respond s (s.cfg.inquiry s.msc.lun), .inp, inquiryLen, true⟩

/-- The 18 bytes of a REQUEST SENSE response (R222). -/
def senseBytes (x : Sense) : List Byte :=
  [0x70, 0, x.key, 0, 0, 0, 0, 0x0A, 0, 0, 0, 0, x.asc, 0, 0, 0, 0, 0]

/-- `REQUEST_SENSE` (R222). -/
def evalRequestSense (s : State) : EvalOut :=
  let s1 := respond s (senseBytes s.sense)
  ⟨if s1.cfg.senseClearOnRead then s1.setSense ⟨0, 0⟩ else s1, .inp, 18, true⟩

/-- `TEST_UNIT_READY` (R223). -/
def evalTestUnitReady (s : State) : EvalOut :=
  let s1 := askReady s s.msc.lun
  if (s1.drvOf s.msc.lun).ready then ⟨s1, .none, 0, true⟩ else evalFail s1 .notReady

/-- `START_STOP_UNIT` (R224). -/
def evalStartStopUnit (s : State) (start eject : Bool) : EvalOut :=
  let s1 := s.emit (.drvStartStop s.msc.lun start eject)
  if (s1.drvOf s.msc.lun).startStopOk then ⟨s1, .none, 0, true⟩ else evalFail s1 .startStopFailed

/-- The address of the last block, `count - 1`, as a 32-bit word; a free value where it needs more bits
(R225; assumption 30). -/
def lastBlock (count : Nat) : BitVec 32 :=
  if count ≤ 2 ^ 32 then BitVec.ofNat 32 (count - 1) else freeLastBlock count

/-- `READ_CAPACITY_10` (R225). -/
def evalReadCapacity10 (s : State) : EvalOut :=
  let l := s.msc.lun
  let s1 := askReady s l
  if !(s1.drvOf l).ready then evalFail s1 .notReady
  else
    let a := s1.drvOf l
    let s2 := cacheBlockSize (askInfo s1 l) l a.blockSize
    if a.count = 0 ∨ a.blockSize = 0 then evalFail s2 .notReady
    else ⟨respond s2 (be32 (lastBlock a.count) ++ be32 a.blockSize), .inp, 8, true⟩

/-- `MODE_SENSE_6` (R226); like every command that calls `DrvGetInfo` it records the block size (R232). -/
def evalModeSense6 (s : State) : EvalOut :=
  let l := s.msc.lun
  let a := s.drvOf l
  let s1 := cacheBlockSize (askInfo s l) l a.blockSize
  ⟨respond s1 [3, 0, if a.writeProtect then 0x80 else 0, 0], .inp, 4, true⟩

/-- `READ_10` (R227). -/
def evalRead10 (s : State) (lba : BitVec 32) (blocks : BitVec 16) : EvalOut :=
  let l := s.msc.lun
  if blocks = 0 then ⟨s, .none, 0, true⟩
  else
    let s1 := askReady s l
    if !(s1.drvOf l).ready then evalFail s1 .notReady
    else
      let a := s1.drvOf l
      let s2 := cacheBlockSize (askInfo s1 l) l a.blockSize
      if a.blockSize = 0 ∨ lba.toNat + blocks.toNat > a.count then evalFail s2 .lbaOutOfRange
      else ⟨s2.setMsc { s2.msc with txSrc := .driver }, .inp, blocks.toNat * a.blockSize.toNat, true⟩

/-- `WRITE_10` (R228). -/
def evalWrite10 (s : State) (lba : BitVec 32) (blocks : BitVec 16) : EvalOut :=
  let l := s.msc.lun
  if blocks = 0 then ⟨s, .none, 0, true⟩
  else
    let s1 := askReady s l
    if !(s1.drvOf l).ready then evalFail s1 .notReady
    else
      let a := s1.drvOf l
      let s2 := cacheBlockSize (askInfo s1 l) l a.blockSize
      if a.writeProtect then evalFail s2 .writeProtected
      else if a.blockSize = 0 ∨ lba.toNat + blocks.toNat > a.count then evalFail s2 .lbaOutOfRange
      else ⟨s2, .out, blocks.toNat * a.blockSize.toNat, true⟩

/-- `eval` (R220). -/
def evalCmd (cmd : ScsiCmd) (s : State) : EvalOut :=
  match cmd with
  | .testUnitReady => evalTestUnitReady s
  | .requestSense => evalRequestSense s
  | .inquiry => evalInquiry s
  | .modeSense6 => evalModeSense6 s
  | .startStopUnit start eject => evalStartStopUnit s start eject
  | .readCapacity10 => evalReadCapacity10 s
  | .read10 lba blocks => evalRead10 s lba blocks
  | .write10 lba blocks => evalWrite10 s lba blocks
  | .unknown _ => evalFail s .invalidCommand

/-! ### The `CDB` rows -/

/-- A command rule run by itself: legal only between commands, as R175 of 43_msc_bot.md runs it, and not
while the device is unconfigured (10_state.md R36). What it returns is the reply. -/
def runCdb (cmd : ScsiCmd) (s : State) : Res :=
  if !s.configured then answerCode s .errNotConfigured
  else if s.msc.state ≠ .idle then answerCode s .errState
  else
    let r := evalCmd cmd s
    .next (r.s.answer (.eval r.intent r.dlen r.ok))

/-- `TEST_UNIT_READY`. -/
def execTestUnitReady (s : State) : Res := runCdb .testUnitReady s
/-- `REQUEST_SENSE`. -/
def execRequestSense (s : State) : Res := runCdb .requestSense s
/-- `INQUIRY`. -/
def execInquiry (s : State) : Res := runCdb .inquiry s
/-- `MODE_SENSE_6`. -/
def execModeSense6 (s : State) : Res := runCdb .modeSense6 s
/-- `START_STOP_UNIT`. -/
def execStartStopUnit (start eject : Bool) (s : State) : Res := runCdb (.startStopUnit start eject) s
/-- `READ_CAPACITY_10`. -/
def execReadCapacity10 (s : State) : Res := runCdb .readCapacity10 s
/-- `READ_10`. -/
def execRead10 (lba : BitVec 32) (blocks : BitVec 16) (s : State) : Res := runCdb (.read10 lba blocks) s
/-- `WRITE_10`. -/
def execWrite10 (lba : BitVec 32) (blocks : BitVec 16) (s : State) : Res := runCdb (.write10 lba blocks) s
/-- An operation code outside `SCSI_SET` (R229). -/
def execScsiUnknown (op : Byte) (s : State) : Res := runCdb (.unknown op) s

/-! ### The query rows (30_encoding.md R89, 44_scsi.md R234)

The row carries the driver's answer: the request leaves the block, and the answer stands until another
exchange gives another one. -/

/-- `DrvGetInfo(lun) -> block_size, count, write_protect`. -/
def execDrvGetInfo (l : Lun) (bs : BitVec 32) (count : Nat) (wp : Bool) (s : State) : Res :=
  .next ((s.emit (.drvGetInfo l)).setDrv l
    { s.drvOf l with blockSize := bs, count := count, writeProtect := wp })

/-- `DrvUnitReady(lun) -> ready`. -/
def execDrvUnitReady (l : Lun) (ready : Bool) (s : State) : Res :=
  .next ((s.emit (.drvUnitReady l)).setDrv l { s.drvOf l with ready := ready })

/-- `DrvStartStop(lun, start, eject) -> ok`. -/
def execDrvStartStop (l : Lun) (start eject ok : Bool) (s : State) : Res :=
  .next ((s.emit (.drvStartStop l start eject)).setDrv l { s.drvOf l with startStopOk := ok })

/-- `DrvStartRead(lun, lba, blocks) -> ok`. -/
def execDrvStartRead (l : Lun) (lba : BitVec 32) (blocks : BitVec 16) (ok : Bool) (s : State) : Res :=
  .next ((s.emit (.drvStartRead l lba blocks)).setDrv l { s.drvOf l with startReadOk := ok })

/-- `DrvStartWrite(lun, lba, blocks) -> ok, buffer, capacity, cb`. -/
def execDrvStartWrite (l : Lun) (lba : BitVec 32) (blocks : BitVec 16) (ok : Bool)
    (buffer capacity cb : Nat) (s : State) : Res :=
  .next ((s.emit (.drvStartWrite l lba blocks)).setDrv l
    { s.drvOf l with startWriteOk := ok, buffer := buffer, capacity := capacity, cb := cb })

end Sys2Proof.Machine
end

