-- ==== Sys2Proof/Machine/Transport.lean ====
section
/-! DEFINITION. The MSC Bulk-Only Transport (43_msc_bot.md): the CBW parser, the thirteen cases, the data
pumps and the CSW, with the storage driver's notifications and `MSC_RESET`. In every rule `h`, `d`, `t`
are `msc.requested`, `msc.intentLen`, `msc.transferred`. -/

namespace Sys2Proof.Machine

/-! ### The CSW -/

/-- `SEND_CSW` (R191). -/
def sendCsw (s : State) : Res :=
  if s.msc.cswArmed ∨ s.msc.inArmed then .refused .cswRequire
  else
    let b := cswBytes s.msc.currentTag (BitVec.ofNat 32 s.msc.residue) s.msc.status
    let s1 := s.setMsc { s.msc with csw := b, state := .csw }
    let ei := s1.cfg.mscIn
    if (s1.epDir ei .inp).halted then .next s1
    else
      let p := s1.cfg.epbuf ei .inp (s1.active ei .inp)
      thenRun (writeMem s1 p b) fun s2 =>
        let s3 := armIn s2 ei .inp p 13
        .next (s3.setMsc { s3.msc with cswArmed := true })

/-- Status and residue written, then `SEND_CSW`: cases 1, 2 and 3. -/
def cswWith (s : State) (status : Byte) (residue : Nat) : Res :=
  sendCsw (s.setMsc { s.msc with status := status, residue := residue })

/-- `MSC_HALT_CLEARED(dir)`: the transport's part of a clear-halt (R194). While the host has bulk IN halted,
clearing bulk OUT in `STALL` leaves the transport in `STALL`, as R194's pseudocode has it; R170's table also lists
`STALL` to `CSW` (pending, not armed) there. DEDUCED (assumption 38). -/
def haltCleared (s : State) (d : Dir) : Res :=
  let s1 := match d with | .out => armOut s | .inp => s
  if (s1.msc.state = .stall ∨ s1.msc.state = .csw) ∧ (s1.epDir s1.cfg.mscIn .inp).halted = false ∧
      s1.msc.cswArmed = false then sendCsw s1
  else .next s1

/-- `MSC_HALT_CLEARED` given by itself. R194 and R195: in `DATA_IN`, `DATA_OUT` and `NRR` the rule does
not run; the device must be configured (10_state.md R36). -/
def execMscHaltCleared (d : Dir) (s : State) : Res :=
  if !s.configured then answerCode s .errNotConfigured
  else if s.inDataPhase ∨ s.msc.state = .nrr then answerCode s .errState
  else answerOk (haltCleared s d)

/-! ### The read path -/

/-- `finish_in()` (R200). -/
def finishIn (s : State) : Res :=
  let s1 := s.setMsc { s.msc with residue := residueOf s.msc.requested s.msc.transferred }
  if s1.msc.transferred < s1.msc.requested then .next (stallMsc s1 .inp) else sendCsw s1

/-- The bytes of the next packet brought to the packet buffer (R196). -/
def pumpCopy (s : State) (p n : Nat) : Res :=
  match s.msc.txSrc with
  | .internal => writeMem s p ((s.msc.resp.drop s.msc.txPtr).take n)
  | .driver => copyMem s p s.msc.txPtr n

/-- `pump_in()` (R196). -/
def pumpIn (s : State) : Res :=
  let ei := s.cfg.mscIn
  let n := min s.msc.txRem (s.cfg.mps ei .inp)
  let p := s.cfg.epbuf ei .inp (s.active ei .inp)
  thenRun (pumpCopy s p n) fun s1 =>
    let s2 := armIn s1 ei .inp p n
    .next (s2.setMsc { s2.msc with
      txPtr := s2.msc.txPtr + n, txRem := s2.msc.txRem - n, txLast := n, inArmed := true })

/-- `MSC_IN` in `DATA_IN` with a packet armed (R197). -/
def onDataInSent (s : State) : Res :=
  let s1 := s.setMsc { s.msc with inArmed := false, transferred := s.msc.transferred + s.msc.txLast }
  if s1.msc.txRem > 0 then pumpIn s1
  else
    let s2 := if s1.msc.txSrc = .driver ∧ s1.msc.op = .read then s1.emit (.drvBlockSent true) else s1
    if s2.msc.txSrc = .internal ∨ s2.msc.op = .none then finishIn s2 else .next s2

/-- `MSC_IN` (R192, R197, R210). -/
def onMscIn (s : State) : Res :=
  match s.msc.state with
  | .csw => if s.msc.cswArmed then .next (toMscState s .idle) else .next s
  | .dataIn => if s.msc.inArmed then onDataInSent s else .next s
  | .idle => .next s
  | .dataOut => .next s
  | .stall => .next s
  | .nrr => .next s

/-- `EV_BLOCK_READY(ptr, len)` (R198). -/
def execEvBlockReady (ptr len : Nat) (s : State) : Res :=
  if s.msc.state = .dataIn ∧ s.msc.txSrc = .driver ∧ s.msc.op = .read ∧ s.msc.inArmed = false ∧
      s.msc.txRem = 0 ∧ len > 0 then
    let n := min len (s.msc.intentLen - s.msc.transferred)
    if n = 0 then .next s
    else pumpIn ((s.setMsc { s.msc with txPtr := ptr, txRem := n }).lendBlock (ptr, len))
  else .refused .notificationRequire

/-- `EV_READ_COMPLETE(ok)` (R199). -/
def execEvReadComplete (ok : Bool) (s : State) : Res :=
  if s.msc.state = .dataIn ∧ s.msc.op = .read then
    let s1 := s.setMsc { s.msc with op := .none }
    let offered := s.msc.transferred + s.msc.txRem + (if s.msc.inArmed then s.msc.txLast else 0)
    let s2 :=
      if ok = false ∨ offered < s.msc.intentLen then
        let s3 := raise s1 (.mediumError .readError)
        s3.setMsc { s3.msc with txRem := 0 }
      else s1
    if s2.msc.inArmed then .next s2 else finishIn s2
  else .refused .notificationRequire

/-! ### The write path -/

/-- The buffer handed to the driver (R203). -/
def handOver (s : State) : State :=
  let s1 := s.emit (.drvWriteBuffer s.msc.wcb true s.msc.wbufFill)
  s1.setMsc { s1.msc with awaitingDrain := true }

/-- `accept(buf, n)` (R202). An empty packet when `t = d` hands the buffer over again, empty, as the pseudocode
has it; R202's corner case says `n = 0` changes only the descriptor. DEDUCED (assumption 39). -/
def acceptPacket (s : State) (buf n : Nat) : Res :=
  if n > s.msc.intentLen - s.msc.transferred ∨ n > s.msc.wbufCap - s.msc.wbufFill then
    .next (raise s .localProtocolMsc)
  else
    thenRun (copyMem s (s.msc.wbufPtr + s.msc.wbufFill) buf n) fun s1 =>
      let s2 := s1.setMsc { s1.msc with
        wbufFill := s1.msc.wbufFill + n, transferred := s1.msc.transferred + n }
      let s3 :=
        if s2.msc.wbufFill = s2.msc.wbufCap ∨ s2.msc.transferred = s2.msc.intentLen then handOver s2
        else s2
      .next (armOut s3)

/-- `MSC_OUT` in `DATA_OUT` (R202). -/
def onDataOutPacket (s : State) (n buf : Nat) : Res :=
  if s.msc.awaitingDrain then
    if s.msc.missed = 0 then
      .next (s.setMsc { s.msc with missed := 1, missedPtr := buf, missedLen := n })
    else .refused .secondMissedPacket
  else acceptPacket s buf n

/-- `EV_WRITE_DATA_HANDLED` (R205). -/
def execEvWriteDataHandled (s : State) : Res :=
  if s.msc.state = .dataOut ∧ s.msc.op = .write ∧ s.msc.awaitingDrain then
    let s1 := s.setMsc { s.msc with awaitingDrain := false, wbufFill := 0 }
    if s1.msc.missed = 1 then
      acceptPacket (s1.setMsc { s1.msc with missed := 0 }) s1.msc.missedPtr s1.msc.missedLen
    else .next s1
  else .refused .notificationRequire

/-- `EV_WRITE_COMPLETE(ok)` (R206). -/
def execEvWriteComplete (ok : Bool) (s : State) : Res :=
  if s.msc.state = .dataOut ∧ s.msc.op = .write ∧
      (ok → s.msc.transferred = s.msc.intentLen ∧ s.msc.awaitingDrain = false) then
    let s1 := s.setMsc { s.msc with op := .none, awaitingDrain := false, missed := 0 }
    let s2 := if ok then s1 else raise s1 (.mediumError .writeError)
    let s3 := s2.setMsc { s2.msc with residue := residueOf s2.msc.requested s2.msc.transferred }
    if s3.msc.transferred < s3.msc.requested then .next (stallMsc s3 .out)
    else thenRun (sendCsw s3) fun s4 => .next (armOut s4)
  else .refused .notificationRequire

/-! ### The thirteen cases -/

/-- A storage operation that could not start: the command fails after all, as case 4 or 9 (R177). -/
def startFailed (s : State) (r : SenseReason) (c : BotCase) (d : Dir) : State :=
  let s1 := raise s (.mediumError r)
  stallWith (s1.setMsc { s1.msc with intent := .none, caseNo := c.num }) failed s1.msc.requested d

/-- Cases 5 and 6: `begin_data()` and the entry to `DATA_IN` (R177, R182, R183, R196). -/
def beginIn (s : State) (cmd : ScsiCmd) (dlen : Nat) : Res :=
  let s1 := s.setMsc { s.msc with intentLen := dlen }
  if (s1.epDir s1.cfg.mscIn .inp).halted then
    .next (s1.setMsc { s1.msc with status := failed, residue := s1.msc.requested, state := .stall })
  else
    match cmd with
    | .read10 lba blocks =>
        let l := s1.msc.lun
        let s2 := s1.emit (.drvStartRead l lba blocks)
        if (s2.drvOf l).startReadOk then
          .next (s2.setMsc { s2.msc with op := .read, state := .dataIn, txRem := 0 })
        else .next (startFailed s2 .readError .c4 .inp)
    | _ => pumpIn (s1.setMsc { s1.msc with state := .dataIn, txPtr := 0, txRem := dlen })

/-- Case 12: `begin_data()` and the entry to `DATA_OUT` (R177, R189; 44_scsi.md R228). -/
def beginOut (s : State) (cmd : ScsiCmd) (dlen : Nat) : Res :=
  let s1 := s.setMsc { s.msc with intentLen := dlen }
  match cmd with
  | .write10 lba blocks =>
      let l := s1.msc.lun
      let s2 := s1.emit (.drvStartWrite l lba blocks)
      let a := s2.drvOf l
      if a.startWriteOk = false ∨ a.capacity = 0 then .next (startFailed s2 .writeError .c9 .out)
      else
        .next (s2.setMsc { s2.msc with
          wbufPtr := a.buffer, wbufCap := a.capacity, wcb := a.cb, wbufFill := 0
          awaitingDrain := false, missed := 0, op := .write, state := .dataOut })
  | _ => .next (s1.setMsc { s1.msc with state := .dataOut })

/-- The rule of a case (R178 to R190). -/
def runCase (c : BotCase) (cmd : ScsiCmd) (dlen : Nat) (s : State) : Res :=
  let h := s.msc.requested
  match c with
  | .c1 => cswWith s s.msc.status 0
  | .c2 => cswWith s phaseError 0
  | .c3 => cswWith s phaseError 0
  | .c4 => .next (stallWith s failed h .inp)
  | .c5 => beginIn s cmd dlen
  | .c6 => beginIn s cmd dlen
  | .c7 => .next (stallWith s phaseError h .inp)
  | .c8 => .next (stallWith s phaseError h .inp)
  | .c9 => .next (stallWith s failed h .out)
  | .c10 => .next (stallWith s phaseError h .out)
  | .c11 => .next (stallWith s failed h .out)
  | .c12 => beginOut s cmd dlen
  | .c13 => .next (stallWith s phaseError h .out)

/-! ### Receiving the CBW -/

/-- The latch of a valid CBW (R174). -/
def latchCbw (s : State) (w : Cbw) : State :=
  armOut (s.setMsc { s.msc with
    cbw := w
    currentTag := w.tag
    requested := w.length.toNat
    hostDir := cbwDir w
    lun := cbwLun w
    cbLen := cbwCbLength w
    transferred := 0
    residue := 0
    status := passed })

/-- Command evaluation and case selection (R175, R176). -/
def evaluate (s : State) : Res :=
  let cmd := scsiOf s.cfg s.msc.cbw.cb
  let r := evalCmd cmd s
  let s1 := if r.ok then r.s else r.s.setMsc { r.s.msc with status := failed }
  let c := selectCase (hostIntent s1.msc.requested s1.msc.hostDir) r.intent s1.msc.requested r.dlen
  runCase c cmd r.dlen (s1.setMsc { s1.msc with intent := r.intent, caseNo := c.num })

/-- `MSC_OUT` in `IDLE` (R171, R172). -/
def onCbwPacket (s : State) (n buf : Nat) : Res :=
  readMem s buf (min n 31) fun b =>
    let w := Cbw.parse b
    if cbwValid s.cfg n w then evaluate (latchCbw s w) else .next (raise s .badCbw)

/-- `MSC_OUT` (R171). -/
def onMscOut (s : State) (n buf : Nat) : Res :=
  match s.msc.state with
  | .idle => onCbwPacket s n buf
  | .dataOut => onDataOutPacket s n buf
  | .dataIn => .next (raise s .badCbw)
  | .stall => .next (raise s .badCbw)
  | .csw => .next (raise s .badCbw)
  | .nrr => .next s

/-! ### `MSC_RESET` and the `CSW` row -/

/-- `MSC_RESET` (R207). -/
def execMscReset (s : State) : Res :=
  if !s.configured then answerCode s .errNotConfigured
  else answerCode (mscResetBody s) .ok

/-- `CSW`: the block builds and hands over a Command Status Wrapper (30_encoding.md R85, R95; R191). The
13 bytes must be the ones the block's registers give, and a CSW must be what the transport is waiting to
send: R170 lists no transition for it from any state but `CSW` (assumption 14). -/
def execCsw (tag residue : BitVec 32) (status : Byte) (s : State) : Res :=
  if !s.configured then answerCode s .errNotConfigured
  else if s.msc.state ≠ .csw then answerCode s .errState
  else if tag ≠ s.msc.currentTag ∨ residue ≠ BitVec.ofNat 32 s.msc.residue ∨ status ≠ s.msc.status then
    answerCode s .errArg
  else answerOk (sendCsw s)

end Sys2Proof.Machine
end

