-- ==== Sys2Proof/Machine/Arbiter.lean ====
section
/-! DEFINITION. The arbiter's commands (40_arbiter.md section 1) and the critical section (60_exceptions.md
R249). -/

namespace Sys2Proof.Machine

/-- `ARM(e, d, addr, n)` (R100). -/
def execArm (e : EpNum) (d : Dir) (addr n : Nat) (s : State) : Res :=
  if s.cfg.nEp ≤ e.val then .refused .endpointOutOfTable
  else answerCode (armIn s e d addr n) (armResult s e d n)

/-- A command that names an endpoint, for a number that can be one. No configuration has a number above 15
(00_scope.md R7: `N_EP <= 16`), so there the result is `ERR_ARG` as for every `e >= N_EP` (60_exceptions.md
R247). -/
def onEndpoint (e : Nat) (s : State) (f : EpNum → Res) : Res :=
  if h : e < 16 then f ⟨e, h⟩ else answerCode s .errArg

/-- The index `QUERY_LEN` reads: the descriptor whose completion was consumed last (R106). -/
def State.lastRead (s : State) (e : EpNum) (d : Dir) : Bool := s.pp e d && !(s.epDir e d).rdIdx

/-- A descriptor's count is no longer that of a consumed completion: armed since, armed now, or returned and
not yet consumed (R106). -/
def EpDir.stale (x : EpDir) (k : Bool) : Bool := x.rearmed k || ((x.bd k).owner == .hw) || x.unread k

/-- `QUERY_LEN(e, d)` for an endpoint number (R106; 60_exceptions.md R247 for its result codes). The gate goes before
`ERR_OWNER`: 92_eei_decisions.md D26, "every command on an endpoint above 0 returns `ERR_NOT_CONFIGURED`". That `ERR_ARG`
goes before the gate is DEDUCED (assumption 17: the order of R109 and R110). -/
def queryLen (e : EpNum) (d : Dir) (s : State) : Res :=
  let k := s.lastRead e d
  if s.cfg.nEp ≤ e.val then answerCode s .errArg
  else if s.gated e then answerCode s .errNotConfigured
  else if (s.epDir e d).stale k then answerCode s .errOwner
  else .next (s.answer (.length ((s.epDir e d).bd k).count))

/-- `QUERY_LEN(e, d)` (R106). -/
def execQueryLen (e : Nat) (d : Dir) (s : State) : Res := onEndpoint e s fun e => queryLen e d s

/-- `SET_HALT(e, d)` given as a command (R109, R193, R214). -/
def execSetHalt (e : Nat) (d : Dir) (s : State) : Res :=
  onEndpoint e s fun e => answerCode (setHaltIn s .command e d) (setHaltResult s .command e d)

/-- `CLEAR_HALT(e, d)`'s checks: the result code, and whether a halt is removed (R110). -/
def clearHaltResult (s : State) (e : EpNum) : ResultCode :=
  if s.cfg.nEp ≤ e.val then .errArg else if s.gated e then .errNotConfigured else .ok

/-- `CLEAR_HALT(e, d)`'s effect when its result is `OK` (R110). -/
def clearHaltBody (s : State) (e : EpNum) (d : Dir) : Res :=
  if (s.epDir e d).halted = false then .next s
  else if s.isMsc e d ∧ s.msc.state = .nrr then .next s
  else
    let s1 := clearHaltStore s e d
    if s1.isMsc e d then haltCleared s1 d else .next s1

/-- `CLEAR_HALT(e, d)` (R110, R194, R195). -/
def execClearHalt (e : Nat) (d : Dir) (s : State) : Res :=
  onEndpoint e s fun e =>
    if clearHaltResult s e = .ok then answerOk (clearHaltBody s e d) else answerCode s (clearHaltResult s e)

/-- One endpoint direction after `EP_INIT`, before endpoint 0 OUT is armed (R112). -/
def EpDir.init (x : EpDir) : EpDir :=
  let y := x.cancel
  { y with
    halted := false, nextToggle := false, activeIdx := false, hwIdx := false, rdIdx := false
    unread0 := false, unread1 := false
    bd0 := { y.bd0 with stall := false }, bd1 := { y.bd1 with stall := false } }

/-- `EP_INIT` (R112). -/
def epInit (s : State) : State :=
  let s1 := s.setEps (tabulate16 fun e => ⟨(s.epDir e .out).init, (s.epDir e .inp).init⟩)
  armIn ((s1.setTcq []).setHold false) 0 .out (s.cfg.epbuf 0 .out false) s.cfg.mps0

/-- `EP_INIT` given as a command. -/
def execEpInit (s : State) : Res := answerCode (epInit s) .ok

/-- `CRIT_ENTER` (60_exceptions.md R249). -/
def execCritEnter (s : State) : Res := answerCode (s.setIrq false) .ok

/-- `CRIT_EXIT` (60_exceptions.md R249). -/
def execCritExit (s : State) : Res := answerCode (s.setIrq true) .ok

end Sys2Proof.Machine
end

