-- ==== Sys2Proof/Machine/Device.lean ====
section
/-! DEFINITION. The device-state commands (42_request_dispatch.md R152, R153), stack initialisation and
bus reset (70_reset_and_hazards.md R270, R271), and the output rows (30_encoding.md R89). -/

namespace Sys2Proof.Machine

/-- `DEV_SET_ADDRESS(a)`: its result code (R152). -/
def setAddressResult (s : State) (a : Nat) : ResultCode :=
  if s.cteState ≠ .setupReceived then .errState else if a > 127 then .errArg else .ok

/-- `DEV_SET_ADDRESS(a)`: its effect (R152). -/
def setAddressBody (s : State) (a : Nat) : State :=
  if setAddressResult s a = .ok then
    s.setDev { s.dev with pendingAddress := BitVec.ofNat 7 a, pendingValid := true }
  else s

/-- `DEV_SET_ADDRESS` (R152). -/
def execDevSetAddress (a : Nat) (s : State) : Res :=
  answerCode (setAddressBody s a) (setAddressResult s a)

/-- `DEV_SET_CONFIG(v)`: its result code (R153). -/
def setConfigResult (s : State) (v : Nat) : ResultCode :=
  if s.cteState ≠ .setupReceived then .errState
  else if v ≠ 0 ∧ s.cfg.offers v = false then .errArg
  else .ok

/-- An endpoint direction above 0 withdrawn and started again with toggle 0 and no halt (R153). -/
def EpDir.restart (x : EpDir) : EpDir :=
  { x.cancel with unread0 := false, unread1 := false, rdIdx := x.hwIdx, halted := false, nextToggle := false }

/-- Every endpoint above 0 restarted (R153). -/
def restartEndpoints (s : State) : State :=
  let s1 := s.setTcq (s.tcq.filter fun t => t.e == 0)
  s1.setEps (tabulate16 fun e =>
    if e = 0 then s.eps.get e else ⟨(s.epDir e .out).restart, (s.epDir e .inp).restart⟩)

/-- `DEV_SET_CONFIG(v)`: its effect (R153). -/
def setConfigBody (s : State) (v : Nat) : State :=
  if setConfigResult s v = .ok then
    let s1 := toMscState (unwind (restartEndpoints s)) .idle
    let s2 := s1.setDev { s1.dev with configurationValue := BitVec.ofNat 8 v }
    if v ≠ 0 then armOut s2 else s2
  else s

/-- `DEV_SET_CONFIG` (R153). -/
def execDevSetConfig (v : Nat) (s : State) : Res := answerCode (setConfigBody s v) (setConfigResult s v)

/-- `dev` after either reset: unconfigured, address 0, nothing pending. -/
def resetDev (s : State) : State :=
  s.setDev { s.dev with configurationValue := 0, pendingValid := false, address := 0 }

/-- `STACK_INIT` (R270). -/
def stackInit (s : State) : State :=
  let s1 := epInit (s.setIrq true)
  let s2 := (s1.setCs { s1.cs with
    valid := false, cbValid := false, needsZlp := false, returningShort := false }).setCte .idle
  let s3 := resetMsc (resetDev s2)
  s3.setSense ⟨0, 0⟩

/-- `STACK_INIT`. -/
def execStackInit (s : State) : Res := .next (stackInit s)

/-- `BUS_RESET` taken (R271). -/
def busReset (s : State) : State :=
  let s1 := if s.cteState ≠ .idle then raise s .sessionAbort else s
  resetMsc (resetDev (epInit (unwind s1)))

/-- `BUS_RESET`: taken while `tc_irq_en = 1`; while it is 0 the host's signal waits (60_exceptions.md
R250, R249). -/
def execBusReset (s : State) : Res :=
  if s.tcIrqEn then .next (busReset (s.setBusReset false)) else .next (s.setBusReset true)

/-! ### Outputs: `emit` appends the event to the output trace

An output row given by itself has no rule behind it: the spec gives it no step. It appends its event and
changes nothing else, whatever session or operation there is; 10_state.md R51 speaks of the events the rules
emit. DESIGN CHOICE (assumption 34). -/

/-- `SetupRequest(setup)`. -/
def execSetupRequest (p : SetupPacket) (s : State) : Res := .next (s.emit (.setupRequest p))
/-- `Completion(id, result)`. -/
def execCompletion (id : Nat) (ok : Bool) (s : State) : Res := .next (s.emit (.completion id ok))
/-- `SetDeviceAddress(a)`. -/
def execSetDeviceAddress (a : BitVec 7) (s : State) : Res := .next (s.emit (.setDeviceAddress a))
/-- `DrvBlockSent(ok)`. -/
def execDrvBlockSent (ok : Bool) (s : State) : Res := .next (s.emit (.drvBlockSent ok))
/-- `DrvWriteBuffer(cb, ok, nbytes)`. -/
def execDrvWriteBuffer (cb : Nat) (ok : Bool) (nbytes : Nat) (s : State) : Res :=
  .next (s.emit (.drvWriteBuffer cb ok nbytes))

end Sys2Proof.Machine
end

