-- ==== Sys2Proof/Machine/Channel.lean ====
section
/-! DEFINITION. The steps of the channel (40_arbiter.md section 3), and the consumption of a completion
(R107) with the `TC` rows, the packets on the wire, and the descriptor-word rows (30_encoding.md R88). -/

namespace Sys2Proof.Machine

/-! ### Steps of the channel -/

/-- What the channel answers to a token or packet. -/
inductive Handshake where
  | ack
  | nak
  | stall
  | none
  deriving DecidableEq, Repr

/-- The channel will not touch endpoint `e` now: nothing is armed there, or endpoint 0 is held
(R102 to R105). An endpoint number at or above `N_EP` has no descriptor, so nothing is ever armed there, and
the channel answers NAK: DESIGN CHOICE (assumption 35). -/
def channelIdle (s : State) (e : EpNum) (d : Dir) : Bool :=
  ((s.epDir e d).bd (s.hw e d)).owner == .fw || (decide (e = 0) && s.ep0Hold)

/-- The answer to an OUT data packet of `m` bytes with the host's data toggle (R102, R105; 93 U3). -/
def outHandshake (s : State) (e : EpNum) (toggle : Bool) (m : Nat) : Handshake :=
  let b := (s.epDir e .out).bd (s.hw e .out)
  if channelIdle s e .out then .nak
  else if b.stall then .stall
  else if m > b.count ∨ toggle ≠ b.toggle then .none
  else .ack

/-- The answer to an IN token (R103, R105). -/
def inHandshake (s : State) (e : EpNum) : Handshake :=
  if channelIdle s e .inp then .nak
  else if ((s.epDir e .inp).bd (s.hw e .inp)).stall then .stall
  else .ack

/-- The answer to a SETUP transaction of `m` bytes: the stall bit and the toggle are not examined
(R104). -/
def setupHandshake (s : State) (m : Nat) : Handshake :=
  if channelIdle s 0 .out then .nak
  else if m > ((s.epDir 0 .out).bd (s.hw 0 .out)).count then .none
  else .ack

/-- The step is not enabled: no state changes, and the host sees the handshake (R105). -/
def notTaken (s : State) (e : EpNum) (d : Dir) (h : Handshake) : State :=
  match h with
  | .ack => s
  | .nak => s.show (.nak e d)
  | .stall => s.show (.stall e d)
  | .none => s.show (.noHandshake e)

/-- The descriptor at `hw_idx` returned after a transaction of `m` bytes: owner `FW`, unread, `hw_idx`
advanced, and a record appended to `TCQ` (R102 to R104). -/
def returnDesc (s : State) (e : EpNum) (pid : Pid) (m : Nat) : State :=
  let d := pid.dir
  let k := s.hw e d
  let s1 := s.onDir e d fun x =>
    let x := (x.setBd k { x.bd k with count := m, stall := false, owner := .fw }).setUnread k true
    if s.pp e d then { x with hwIdx := !k } else x
  s1.setTcq (s1.tcq ++ [⟨e, pid⟩])

/-- An enabled `HW_OUT` (R102). -/
def takeOut (s : State) (e : EpNum) (payload : List Byte) : Res :=
  thenRun (writeMem s ((s.epDir e .out).bd (s.hw e .out)).addr payload) fun s1 =>
    .next ((returnDesc s1 e .out payload.length).show (.ack e .out))

/-- `HW_OUT(e, OUT, payload)` (R102). -/
def execHwOut (e : EpNum) (toggle : Bool) (payload : List Byte) (s : State) : Res :=
  let h := outHandshake s e toggle payload.length
  if h = .ack then takeOut s e payload else .next (notTaken s e .out h)

/-- `HW_IN(e)` (R103). -/
def execHwIn (e : EpNum) (s : State) : Res :=
  let h := inHandshake s e
  let b := (s.epDir e .inp).bd (s.hw e .inp)
  if h = .ack then
    readMem s b.addr b.count fun bs => .next ((returnDesc s e .inp b.count).show (.data e b.toggle bs))
  else .next (notTaken s e .inp h)

/-- An enabled SETUP transaction (R104). -/
def takeSetup (s : State) (payload : List Byte) : Res :=
  let s1 := endEp0Halt (endEp0Halt s .out) .inp
  let s2 := (cancel s1 0 .inp).setHold true
  thenRun (writeMem s2 ((s2.epDir 0 .out).bd (s2.hw 0 .out)).addr payload) fun s3 =>
    .next ((returnDesc s3 0 .setup payload.length).show (.ack 0 .setup))

/-- `HW_OUT(0, SETUP, payload)` (R104). -/
def execHwSetup (payload : List Byte) (s : State) : Res :=
  let h := setupHandshake s payload.length
  if h = .ack then takeSetup s payload else .next (notTaken s 0 .out h)

/-! ### Consuming a completion (R107) -/

/-- The head of `TCQ` removed and its descriptor marked read, with the toggle advanced (R107, R108). -/
def consumed (s : State) (t : Tc) (rest : List Tc) : State :=
  let k := s.rd t.e t.d
  (s.setTcq rest).onDir t.e t.d fun x =>
    let x := { (x.setUnread k false).setRearmed k false with nextToggle := toggleAfter t.pid x.nextToggle }
    if s.pp t.e t.d then { x with rdIdx := !k } else x

/-- The handler a record selects, with the bytes moved and the packet buffer (R107, R114). -/
def handle (s : State) (t : Tc) (n buf : Nat) : Res :=
  if t.e = 0 then
    match t.pid with
    | .setup => onCteSetup s n buf
    | .inp => onCteIn s
    | .out => onCteOut s n buf
  else if t.d = .out ∧ t.e = s.cfg.mscOut then onMscOut s n buf
  else if t.d = .inp ∧ t.e = s.cfg.mscIn then onMscIn s
  else .next (s.emit (.externalTc t.e t.d t.pid n))

/-- The head of `TCQ` consumed and handled, in one step (R107). -/
def takeHead (s : State) : Res :=
  match s.tcq with
  | [] => .next s
  | t :: rest =>
      let b := (s.epDir t.e t.d).bd (s.rd t.e t.d)
      handle (consumed s t rest) t b.count b.addr

/-- `EV_TC(tc)`: the record named must be the head of `TCQ` (30_encoding.md R94). With the mask closed, or
with nothing queued, no interrupt is taken and the step changes nothing (60_exceptions.md R249, R250). -/
def consumeTc (t : Tc) (s : State) : Res :=
  if s.tcIrqEn = false then .next s
  else
    match s.tcq with
    | [] => .next s
    | x :: _ => if x = t then takeHead s else .refused .notHeadOfQueue

/-- `EV_TC`. -/
def execEvTc (t : Tc) (s : State) : Res := consumeTc t s
/-- `CTE_SETUP`, `tc = 0x04`. -/
def execCteSetup (s : State) : Res := consumeTc ⟨0, .setup⟩ s
/-- `CTE_OUT`, `tc = 0x00`. -/
def execCteOut (s : State) : Res := consumeTc ⟨0, .out⟩ s
/-- `CTE_IN`, `tc = 0x0A`. -/
def execCteIn (s : State) : Res := consumeTc ⟨0, .inp⟩ s
/-- `MSC_OUT`, `tc = MSC_EP_OUT*16`. -/
def execMscOut (s : State) : Res := consumeTc ⟨s.cfg.mscOut, .out⟩ s
/-- `MSC_IN`, `tc = MSC_EP_IN*16 + 0x0A`. -/
def execMscIn (s : State) : Res := consumeTc ⟨s.cfg.mscIn, .inp⟩ s
/-- `EXT_TC`: any other legal `TC` word (R114). -/
def execExtTc (e : EpNum) (d : Dir) (s : State) : Res :=
  match d with
  | .out => consumeTc ⟨e, .out⟩ s
  | .inp => consumeTc ⟨e, .inp⟩ s

/-! ### Packets on the wire (30_encoding.md R95) -/

/-- The completion of the transaction just done, consumed at once if the mask is open and no other
completion waits before it; otherwise it stays in `TCQ`. -/
def consumeIfNext (waiting : List Tc) (s : State) : Res :=
  if s.tcIrqEn ∧ waiting = [] then takeHead s else .next s

/-- The pseudo-operation `SETUP b0 .. b7`: the channel takes the packet, and the block consumes it. -/
def setupOnWire (p : SetupPacket) (s : State) : Res :=
  let h := setupHandshake s 8
  if h = .ack then thenRun (takeSetup s p.bytes) (consumeIfNext s.tcq) else .next (notTaken s 0 .out h)

/-- `CBW`: the pseudo-operation `CBW bytes`: the host sends a packet on bulk OUT with the toggle the
descriptor has, and the block consumes it. The packet is one of any length (30_encoding.md R92). -/
def execCbw (packet : List Byte) (s : State) : Res :=
  let e := s.cfg.mscOut
  let h := outHandshake s e ((s.epDir e .out).bd (s.hw e .out)).toggle packet.length
  if h = .ack then thenRun (takeOut s e packet) (consumeIfNext s.tcq) else .next (notTaken s e .out h)

/-! ### The descriptor-word rows (30_encoding.md R88)

A row is the write of its control word by the agent the opcode table names for it, with all that goes with
that write; nothing else may write a descriptor (10_state.md R23, R47, R48). DEDUCED (assumption 15). -/

/-- `BD_ARMED`: `ARM` at the address the descriptor has. The word must be the one `ARM` would write: the
descriptor is the next to arm, and the toggle the next toggle (40_arbiter.md R100). -/
def execBdArmed (e : EpNum) (d : Dir) (k toggle : Bool) (n : BitVec 10) (s : State) : Res :=
  if k = s.active e d ∧ toggle = s.armToggle e d then execArm e d ((s.epDir e d).bd k).addr n.toNat s
  else answerCode s .errArg

/-- `BD_STALLED`: `SET_HALT`. The word must be the one `SET_HALT` would write: the descriptor the channel uses
next, with `n = MPS[e][d]` (40_arbiter.md R109). -/
def execBdStalled (e : EpNum) (d : Dir) (k : Bool) (n : BitVec 10) (s : State) : Res :=
  if k = s.hw e d ∧ n.toNat = s.cfg.mps e d then execSetHalt e d s else answerCode s .errArg

/-- The channel can return `BD[e][d][k]` with the word `0 t 0 000 n`: the descriptor is the one it uses next,
and a transaction that moves `n` bytes is enabled on it (40_arbiter.md R102, R103). -/
def canReturn (s : State) (e : EpNum) (d : Dir) (k toggle : Bool) (n : Nat) : Bool :=
  (k == s.hw e d) && (toggle == ((s.epDir e d).bd k).toggle) &&
  (match d with
    | .out => decide (outHandshake s e toggle n = .ack)
    | .inp => decide (inHandshake s e = .ack) && decide (n = ((s.epDir e d).bd k).count))

/-- `BD_RETURNED`: the channel completes a transaction of `n` bytes on the descriptor: for OUT the payload is
what the descriptor's buffer holds. Where that is not enabled the channel writes nothing; the word is then at
most the idle pattern of a descriptor the block has. -/
def execBdReturned (e : EpNum) (d : Dir) (k toggle : Bool) (n : BitVec 10) (s : State) : Res :=
  if canReturn s e d k toggle n.toNat then
    match d with
    | .out => execHwOut e toggle (s.bytes ((s.epDir e d).bd k).addr n.toNat) s
    | .inp => execHwIn e s
  else .next s

end Sys2Proof.Machine
end

