-- ==== Sys2Proof/Machine/Requests.lean ====
section
/-! DEFINITION. The requests of 42_request_dispatch.md: what a conforming dispatcher does with the SETUP
packet of a `SetupRequest`. The commands of one request are one step (R160: the sequence is a critical
section). A request row while no SETUP is waiting for its disposition returns `ERR_STATE` and changes
nothing (R151: the dispatcher answers a `SetupRequest`). -/

namespace Sys2Proof.Machine

/-- A command, then `ACCEPT` if its result was `OK` and `REJECT` otherwise (R152 to R156, R159). -/
def acceptIfOk (r : ResultCode) (done : Res) (s : State) : Res :=
  if r = .ok then thenRun done (execAccept none) else execReject s

/-- The dispatcher's answer, given only for a SETUP that is waiting for one (R151). -/
def onRequest (s : State) (f : Res) : Res :=
  if s.cteState ≠ .setupReceived then answerCode s .errState else f

/-- The disposition command an oracle's answer is (R151, R158). A configuration whose oracle answers with an
address or a callback wider than `ADDR_W` or `CB_W` is refused before it runs (`Config.tablesOk`,
assumption 29). -/
def dispose (d : Disposition) (s : State) : Res :=
  match d with
  | .controlReturn ptr avail req => execStartControlReturn ptr avail req s
  | .receive buf expected cb => execStartReceive buf expected cb s
  | .accept cb => execAccept cb s
  | .reject => execReject s

/-- `GET_DESCRIPTOR` (R157). -/
def execGetDescriptor (type index : Byte) (language wLength : BitVec 16) (s : State) : Res :=
  match s.cfg.descriptor type index language with
  | some (addr, len) => execStartControlReturn addr len wLength.toNat s
  | none => execReject s

/-- `SET_ADDRESS` (R152): `DEV_SET_ADDRESS a=wValue[6:0]`, then `ACCEPT`. -/
def execSetAddress (wValue _wIndex : BitVec 16) (s : State) : Res :=
  let a := (wValue.extractLsb' 0 7).toNat
  onRequest s (acceptIfOk (setAddressResult s a) (.next (setAddressBody s a)) s)

/-- `SET_CONFIGURATION` (R153): `DEV_SET_CONFIG v=wValue[7:0]`, then `ACCEPT` or `REJECT`. -/
def execSetConfiguration (wValue _wIndex : BitVec 16) (s : State) : Res :=
  let v := (wValue.extractLsb' 0 8).toNat
  onRequest s (acceptIfOk (setConfigResult s v) (.next (setConfigBody s v)) s)

/-- `CLEAR_FEATURE(ENDPOINT_HALT)` (R155). -/
def execClearFeatureEndpointHalt (wIndex : BitVec 16) (s : State) : Res :=
  let e := wIndexEp wIndex
  onRequest s (acceptIfOk (clearHaltResult s e) (clearHaltBody s e (wIndexDir wIndex)) s)

/-- `SET_FEATURE(ENDPOINT_HALT)` (R154). -/
def execSetFeatureEndpointHalt (wIndex : BitVec 16) (s : State) : Res :=
  let e := wIndexEp wIndex
  let d := wIndexDir wIndex
  onRequest s (acceptIfOk (setHaltResult s .command e d) (.next (setHaltIn s .command e d)) s)

/-- `BULK_ONLY_MASS_STORAGE_RESET` (R156). -/
def execBulkOnlyMassStorageReset (s : State) : Res :=
  onRequest s (acceptIfOk (if s.configured then .ok else .errNotConfigured) (.next (mscResetBody s)) s)

/-- The SETUP packet of a `GET_MAX_LUN` request (R150). -/
def getMaxLunPacket (c : Config) (wValue : BitVec 16) : SetupPacket :=
  ⟨c.req.getMaxLun.bmRequestType, c.req.getMaxLun.bRequest, wValue, c.mscIface.setWidth 16, 1⟩

/-- `GET_MAX_LUN`: the answer of the oracle `Dispatch` (R158). -/
def execGetMaxLun (wValue : BitVec 16) (s : State) : Res :=
  dispose (s.cfg.dispatchOf (getMaxLunPacket s.cfg wValue)) s

/-- `SETUP`: on the wire, the packet is received and consumed (30_encoding.md R81, R95; 41_control_engine.md
R121); at the dispatcher, a request no other row matches gets the answer of `Dispatch` (R158, R159). -/
def execSetup (port : SetupPort) (p : SetupPacket) (s : State) : Res :=
  match port with
  | .wire => setupOnWire p s
  | .request => dispose (s.cfg.dispatchOf p) s

end Sys2Proof.Machine
end

