-- ==== Sys2Proof/Machine/Dispatch.lean ====
section
/-! DEFINITION. One arm for each constructor of Instr. -/

namespace Sys2Proof.Machine

def exec (i : Instr) (s : State) : Host.Outcome State Fault Refusal :=
  match i with
  | .evTc t => Sys2Proof.Machine.execEvTc t s
  | .busReset => Sys2Proof.Machine.execBusReset s
  | .arm e d addr n => Sys2Proof.Machine.execArm e d addr n s
  | .queryLen e d => Sys2Proof.Machine.execQueryLen e d s
  | .setHalt e d => Sys2Proof.Machine.execSetHalt e d s
  | .clearHalt e d => Sys2Proof.Machine.execClearHalt e d s
  | .epInit => Sys2Proof.Machine.execEpInit s
  | .critEnter => Sys2Proof.Machine.execCritEnter s
  | .critExit => Sys2Proof.Machine.execCritExit s
  | .startControlReturn ptr avail req => Sys2Proof.Machine.execStartControlReturn ptr avail req s
  | .startReceive buf expected cb => Sys2Proof.Machine.execStartReceive buf expected cb s
  | .accept cb => Sys2Proof.Machine.execAccept cb s
  | .reject => Sys2Proof.Machine.execReject s
  | .devSetAddress a => Sys2Proof.Machine.execDevSetAddress a s
  | .devSetConfig v => Sys2Proof.Machine.execDevSetConfig v s
  | .stackInit => Sys2Proof.Machine.execStackInit s
  | .evBlockReady ptr len => Sys2Proof.Machine.execEvBlockReady ptr len s
  | .evReadComplete ok => Sys2Proof.Machine.execEvReadComplete ok s
  | .evWriteDataHandled => Sys2Proof.Machine.execEvWriteDataHandled s
  | .evWriteComplete ok => Sys2Proof.Machine.execEvWriteComplete ok s
  | .mscReset => Sys2Proof.Machine.execMscReset s
  | .mscHaltCleared d => Sys2Proof.Machine.execMscHaltCleared d s
  | .setupRequest p => Sys2Proof.Machine.execSetupRequest p s
  | .completion id ok => Sys2Proof.Machine.execCompletion id ok s
  | .setDeviceAddress a => Sys2Proof.Machine.execSetDeviceAddress a s
  | .drvGetInfo lun blockSize count writeProtect => Sys2Proof.Machine.execDrvGetInfo lun blockSize count writeProtect s
  | .drvUnitReady lun ready => Sys2Proof.Machine.execDrvUnitReady lun ready s
  | .drvStartStop lun start eject ok => Sys2Proof.Machine.execDrvStartStop lun start eject ok s
  | .drvStartRead lun lba blocks ok => Sys2Proof.Machine.execDrvStartRead lun lba blocks ok s
  | .drvStartWrite lun lba blocks ok buffer capacity cb => Sys2Proof.Machine.execDrvStartWrite lun lba blocks ok buffer capacity cb s
  | .drvBlockSent ok => Sys2Proof.Machine.execDrvBlockSent ok s
  | .drvWriteBuffer cb ok nbytes => Sys2Proof.Machine.execDrvWriteBuffer cb ok nbytes s
  | .hwOut e toggle payload => Sys2Proof.Machine.execHwOut e toggle payload s
  | .hwIn e => Sys2Proof.Machine.execHwIn e s
  | .hwSetup payload => Sys2Proof.Machine.execHwSetup payload s
  | .cteSetup => Sys2Proof.Machine.execCteSetup s
  | .cteOut => Sys2Proof.Machine.execCteOut s
  | .cteIn => Sys2Proof.Machine.execCteIn s
  | .mscOut => Sys2Proof.Machine.execMscOut s
  | .mscIn => Sys2Proof.Machine.execMscIn s
  | .extTc e d => Sys2Proof.Machine.execExtTc e d s
  | .setup port p => Sys2Proof.Machine.execSetup port p s
  | .getDescriptor ty index language wLength => Sys2Proof.Machine.execGetDescriptor ty index language wLength s
  | .setAddress wValue wIndex => Sys2Proof.Machine.execSetAddress wValue wIndex s
  | .setConfiguration wValue wIndex => Sys2Proof.Machine.execSetConfiguration wValue wIndex s
  | .clearFeatureEndpointHalt wIndex => Sys2Proof.Machine.execClearFeatureEndpointHalt wIndex s
  | .setFeatureEndpointHalt wIndex => Sys2Proof.Machine.execSetFeatureEndpointHalt wIndex s
  | .bulkOnlyMassStorageReset => Sys2Proof.Machine.execBulkOnlyMassStorageReset s
  | .getMaxLun wValue => Sys2Proof.Machine.execGetMaxLun wValue s
  | .cbw packet => Sys2Proof.Machine.execCbw packet s
  | .csw tag residue status => Sys2Proof.Machine.execCsw tag residue status s
  | .testUnitReady => Sys2Proof.Machine.execTestUnitReady s
  | .requestSense => Sys2Proof.Machine.execRequestSense s
  | .inquiry => Sys2Proof.Machine.execInquiry s
  | .modeSense6 => Sys2Proof.Machine.execModeSense6 s
  | .startStopUnit start eject => Sys2Proof.Machine.execStartStopUnit start eject s
  | .readCapacity10 => Sys2Proof.Machine.execReadCapacity10 s
  | .read10 lba blocks => Sys2Proof.Machine.execRead10 lba blocks s
  | .write10 lba blocks => Sys2Proof.Machine.execWrite10 lba blocks s
  | .scsiUnknown op => Sys2Proof.Machine.execScsiUnknown op s
  | .bdArmed e d k toggle n => Sys2Proof.Machine.execBdArmed e d k toggle n s
  | .bdStalled e d k n => Sys2Proof.Machine.execBdStalled e d k n s
  | .bdReturned e d k toggle n => Sys2Proof.Machine.execBdReturned e d k toggle n s

end Sys2Proof.Machine
end

