-- ==== Sys2Proof/Machine/Ownership.lean ====
section
/-! DEFINITION. Which bytes of buffer memory the environment may write (20_memory.md R74;
70_reset_and_hazards.md R275, R277): a write that touches a buffer the channel or the block owns is refused
(93_implementation_defined.md U1). -/

namespace Sys2Proof.Machine

/-- What the channel owns with the descriptors it has: the bytes each names, and its packet buffer (R275). -/
def State.channelBuffers (s : State) : List (Nat × Nat) :=
  (List.finRange 16).flatMap fun e =>
    [Dir.out, Dir.inp].flatMap fun d =>
      (s.indices e d).flatMap fun k =>
        let b := (s.epDir e d).bd k
        if b.owner = .hw then [(b.addr, b.count), (s.cfg.epbuf e d k, s.cfg.mps e d)] else []

/-- The packet buffers of the endpoint directions the block itself serves: while the channel does not own one,
the block does. The packet buffer of any other endpoint is its owner's while it is not armed (R284). -/
def State.blockBuffers (s : State) : List (Nat × Nat) :=
  [((0 : EpNum), Dir.out), (0, .inp), (s.cfg.mscOut, .out), (s.cfg.mscIn, .inp)].flatMap fun x =>
    (s.indices x.1 x.2).map fun k => (s.cfg.epbuf x.1 x.2 k, s.cfg.mps x.1 x.2)

/-- The buffer of a control transfer, from its disposition until the session ends (R277). -/
def State.sessionBuffers (s : State) : List (Nat × Nat) :=
  match s.cteState with
  | .idle => []
  | .setupReceived => []
  | .dataIn => [s.lentSession]
  | .dataOut => [s.lentSession]
  | .status => [s.lentSession]

/-- The storage driver's buffers in use: an announced block until it has been sent, and the write buffer except
between `DrvWriteBuffer` and the driver's acknowledgement (R277). -/
def State.driverBuffers (s : State) : List (Nat × Nat) :=
  match s.msc.state with
  | .dataIn =>
      if s.msc.txSrc = .driver ∧ (s.msc.inArmed = true ∨ s.msc.txRem > 0) then [s.lentBlock] else []
  | .dataOut =>
      if s.msc.op = .write ∧ s.msc.awaitingDrain = false then [(s.msc.wbufPtr, s.msc.wbufCap)] else []
  | .idle => []
  | .stall => []
  | .csw => []
  | .nrr => []

/-- Every buffer the environment may not write now. -/
def State.foreignBuffers (s : State) : List (Nat × Nat) :=
  s.channelBuffers ++ s.blockBuffers ++ s.sessionBuffers ++ s.driverBuffers

/-- The environment writes bytes to a buffer of its own (20_memory.md R60, R74). -/
def envWrite (addr : Nat) (bs : List Byte) (s : State) : Res :=
  if s.foreignBuffers.all (rangesDisjoint (addr, bs.length)) then writeMem s addr bs
  else .refused .foreignBufferWrite

end Sys2Proof.Machine
end

