-- ==== Sys2Proof/Machine/Step.lean ====
section
/-! DEFINITION. One step: the next thing that happens (30_encoding.md R94: a run is a trace of steps).
What the environment does next is the head of the inputs. A bus reset the mask kept waiting comes first
(60_exceptions.md R251). With no input left, a queued completion is taken when the mask is open, and
otherwise the block waits. -/

namespace Sys2Proof.Machine

/-- A record fetched from the inputs, decoded and run. -/
def runRecord (r : InRecord) (s : State) : Res :=
  match decode s.cfg r with
  | some i => exec i s
  | none => .refused .illegalRecord

/-- The next input taken. -/
def runInput (x : Input) (s : State) : Res :=
  match x with
  | .record r => runRecord r s
  | .memWrite addr bs => envWrite addr bs s

/-- No input is left: a completion is taken if one can be, else the block waits. -/
def idleStep (s : State) : Res := if s.tcIrqEn then takeHead s else .next s

/-- A step's ordinary action `r`, unless the configuration is a bad one (00_scope.md R9), or a bus reset that
was kept waiting comes first. -/
def unlessReset (s : State) (r : Res) : Res :=
  if s.cfg.wf = false then .refused .badConfiguration
  else if s.busResetPending ∧ s.tcIrqEn then execBusReset s
  else r

/-- One step: the next thing that happens. -/
def step (s : State) : Host.Outcome State Fault Refusal :=
  match s.inputs with
  | [] => unlessReset s (idleStep s)
  | x :: rest => unlessReset s (runInput x (s.setInputs rest))

/-- The state with the table's word placed where the next step takes its instruction: at the head of the
inputs, with no bus reset waiting before it. -/
def State.withFetchWord (s : State) (nbits w : Nat) : State :=
  (s.setBusReset false).setInputs (.record (tableRecord s.cfg nbits w) :: s.inputs)

end Sys2Proof.Machine
end

