-- ==== Sys2Proof/Safety.lean ====
section
/-! DEFINITION. What a safe run is, in the terms the statements use: the invariants of 10_state.md
section 9 and of rules R34 and R36, the widths of the registers, and the relations that say what a rule
leaves alone. -/

namespace Sys2Proof.Machine

/-! ### Invariants -/

/-- Buffer memory is in its one canonical form. -/
def State.memoryOk (s : State) : Prop := Memory.wf s.mem

/-- 10_state.md R34: a session exists exactly when the engine is not idle, and no flag of a session is
set without one. -/
def State.sessionOk (s : State) : Prop :=
  (s.cs.valid = true ↔ s.cteState ≠ .idle) ∧
  (s.cs.valid = false → s.cs.cbValid = false ∧ s.cs.needsZlp = false ∧ s.cs.returningShort = false)

/-- The bytes of the packet in flight. -/
def Msc.inFlight (m : Msc) : Nat := if m.inArmed then m.txLast else 0

/-- 10_state.md R50: no more bytes are transferred than the host asked for, and in a data phase no more
than the device intends, which is no more than the host asked for. -/
def State.countersOk (s : State) : Prop :=
  s.msc.transferred ≤ s.msc.requested ∧
  (s.msc.state = .dataIn ∨ s.msc.state = .dataOut →
    s.msc.transferred ≤ s.msc.intentLen ∧ s.msc.intentLen ≤ s.msc.requested)

/-- What keeps `countersOk` true of every step: the bytes sent, in flight and still to be armed are
within the device's intent, and only a read phase has a packet of data in flight. -/
def State.pumpOk (s : State) : Prop :=
  (s.msc.state = .dataIn → s.msc.transferred + s.msc.inFlight + s.msc.txRem ≤ s.msc.intentLen) ∧
  (s.msc.inArmed = true → s.msc.state = .dataIn)

/-- 10_state.md R36: while the device is unconfigured the channel owns nothing above endpoint 0, no
completion from there waits, and the transport is idle. -/
def State.gateOk (s : State) : Prop :=
  s.dev.configurationValue = 0 →
    (∀ e d k, e ≠ 0 → ((s.epDir e d).bd k).owner = .fw) ∧ (∀ t ∈ s.tcq, t.e = 0) ∧ s.msc.state = .idle

/-- 10_state.md R48 for one endpoint direction. -/
def State.haltAgrees (s : State) (e : EpNum) (d : Dir) : Prop :=
  ((s.epDir e d).halted = true ↔
    ((s.epDir e d).bd (s.hw e d)).stall = true ∧ ((s.epDir e d).bd (s.hw e d)).owner = .hw) ∧
  (∀ k ∈ s.indices e d, k ≠ s.hw e d → ((s.epDir e d).bd k).stall = false ∧
    ((s.epDir e d).halted = true → ((s.epDir e d).bd k).owner = .fw)) ∧
  ((s.epDir e d).halted = false → ((s.epDir e d).bd (s.hw e d)).stall = false)

/-- 10_state.md R48: halt and stall agree; a stall bit is set in a halted direction only. -/
def State.haltOk (s : State) : Prop := ∀ e d, s.haltAgrees e d

/-- 10_state.md R47 for one endpoint direction: the channel owns the descriptors from `hw_idx` up to but not
including `active_buffer_index`; where the two are equal it owns none or both. A direction that is not
double-buffered has one descriptor; and a halted one is as `SET_HALT` leaves it, with the stalled descriptor the
next to arm (40_arbiter.md R109). -/
def State.orderAgrees (s : State) (e : EpNum) (d : Dir) : Prop :=
  let x := s.epDir e d
  let k := s.hw e d
  (s.cfg.pingpong e d = false → (x.bd true).owner = .fw) ∧
  (s.cfg.pingpong e d = true →
    (x.halted = true → x.activeIdx = k) ∧
    (x.halted = false → x.activeIdx = k → (x.bd k).owner = (x.bd (!k)).owner) ∧
    (x.halted = false → x.activeIdx = !k → (x.bd k).owner = .hw ∧ (x.bd (!k)).owner = .fw))

/-- 10_state.md R47: every direction's indices say which descriptors the channel owns. -/
def State.orderOk (s : State) : Prop := ∀ e d, s.orderAgrees e d

/-- What keeps `haltOk` true of every step on endpoint 0. Before its disposition a SETUP holds the endpoint and
is no longer queued; a queued SETUP holds it, has ended every halt of endpoint 0, and is the only one
(40_arbiter.md R104, 41_control_engine.md R121); and endpoint 0 IN is halted in `IDLE` only (10_state.md
R49). -/
def State.ep0Ok (s : State) : Prop :=
  (s.cteState = .setupReceived → s.ep0Hold = true ∧ ⟨0, .setup⟩ ∉ s.tcq) ∧
  (⟨0, .setup⟩ ∈ s.tcq → s.ep0Hold = true ∧ ∀ d, (s.epDir 0 d).halted = false) ∧
  s.tcq.count ⟨0, .setup⟩ ≤ 1 ∧
  ((s.epDir 0 .inp).halted = true → s.cteState = .idle)

/-- The registers of a fixed width that are natural numbers here hold values of the widths 10_state.md gives them
(R21, R33, R38 to R42), and the byte registers have their lengths. The driver's answer that becomes
`msc.wbuf_cap` fits that register's 32 bits (R42). Addresses and callbacks, whose widths are parameters, are not
among them. -/
def State.widthsOk (s : State) : Prop :=
  (∀ e d k, ((s.epDir e d).bd k).count ≤ 1023) ∧
  s.cs.remaining ≤ 65535 ∧ s.cs.lastLen ≤ 1023 ∧
  s.msc.requested < 2 ^ 32 ∧ s.msc.transferred < 2 ^ 32 ∧ s.msc.residue < 2 ^ 32 ∧
  s.msc.intentLen < 2 ^ 32 ∧ s.msc.txRem < 2 ^ 32 ∧ s.msc.txLast ≤ 1023 ∧
  s.msc.wbufCap < 2 ^ 32 ∧ s.msc.wbufFill < 2 ^ 32 ∧ s.msc.cbLen ≤ 16 ∧
  s.msc.missed ≤ 1 ∧ s.msc.missedLen ≤ 1023 ∧ s.msc.caseNo ≤ 13 ∧ s.msc.status.toNat ≤ 2 ∧
  s.msc.resp.length = 36 ∧ s.msc.csw.length = 13 ∧ ∀ l, (s.drvOf l).capacity < 2 ^ 32

/-- A state of a safe run: a good configuration, and every invariant. -/
def State.Inv (s : State) : Prop :=
  s.cfg.wf = true ∧ s.memoryOk ∧ s.sessionOk ∧ s.countersOk ∧ s.pumpOk ∧ s.gateOk ∧ s.widthsOk

/-! ### What a rule leaves alone -/

/-- Every byte of buffer memory reads as before. -/
def SameMemory (s t : State) : Prop := ∀ a, t.byte a = s.byte a

/-- Every byte outside the `n` bytes at `a` reads as before. -/
def SameMemoryOutside (s t : State) (a n : Nat) : Prop := ∀ x, (x < a ∨ a + n ≤ x) → t.byte x = s.byte x

/-- The `n` bytes at `dst` are the `n` bytes that were at `src`. -/
def Copied (s t : State) (dst src n : Nat) : Prop := ∀ i, i < n → t.byte (dst + i) = s.byte (src + i)

/-- Every endpoint direction but `(e, d)` is as before. -/
def SameDirsBut (s t : State) (e : EpNum) (d : Dir) : Prop :=
  ∀ e' d', e' ≠ e ∨ d' ≠ d → t.epDir e' d' = s.epDir e' d'

/-- Every endpoint direction above endpoint 0 is as before. -/
def SameAboveZero (s t : State) : Prop := ∀ e d, e ≠ 0 → t.epDir e d = s.epDir e d

/-- The descriptor `(e, d)` the block arms next is offered to the channel with `n` bytes at `addr` and
the next toggle; the rest of the direction is as before. -/
def Offers (s t : State) (e : EpNum) (d : Dir) (addr n : Nat) : Prop :=
  let x := s.epDir e d
  let y := t.epDir e d
  let k := s.active e d
  y.bd k = ⟨addr, n, .hw, x.nextToggle, false⟩ ∧ y.bd (!k) = x.bd (!k) ∧
  y.halted = x.halted ∧ y.nextToggle = x.nextToggle ∧ y.hwIdx = x.hwIdx ∧ y.rdIdx = x.rdIdx ∧
  y.unread false = x.unread false ∧ y.unread true = x.unread true ∧
  y.rearmed k = true ∧ y.rearmed (!k) = x.rearmed (!k) ∧
  y.activeIdx = (if s.cfg.pingpong e d then !k else x.activeIdx)

/-- `(e, d)` can be armed and nothing of it is outstanding: not halted, every descriptor with the block,
no completion unread (the one-outstanding discipline of 10_state.md R47). -/
def State.clear (s : State) (e : EpNum) (d : Dir) : Prop :=
  (s.epDir e d).halted = false ∧ s.quiet e d = true

/-- The completion about to be consumed is the one thing outstanding on `(e, d)`: not halted, every
descriptor with the block, no other completion unread. -/
def State.oneUnread (s : State) (e : EpNum) (d : Dir) : Prop :=
  (s.epDir e d).halted = false ∧
  ∀ j ∈ s.indices e d, ((s.epDir e d).bd j).owner = .fw ∧ (j ≠ s.rd e d → (s.epDir e d).unread j = false)

/-- The packet buffer the next arm of `(e, d)` uses. -/
def State.nextBuf (s : State) (e : EpNum) (d : Dir) : Nat := s.cfg.epbuf e d (s.active e d)

/-- What consuming the completion at `rd` does to its direction (40_arbiter.md R107, R108) when the rule it
selects leaves the direction alone. -/
def ReadOnce (s t : State) (e : EpNum) (d : Dir) : Prop :=
  let x := s.epDir e d
  let y := t.epDir e d
  let k := s.rd e d
  y.nextToggle = (!x.nextToggle) ∧ y.unread k = false ∧ y.unread (!k) = x.unread (!k) ∧
  y.rearmed k = false ∧ y.rearmed (!k) = x.rearmed (!k) ∧
  (∀ j, y.bd j = x.bd j) ∧ y.rdIdx = (if s.cfg.pingpong e d then !k else x.rdIdx) ∧
  y.hwIdx = x.hwIdx ∧ y.activeIdx = x.activeIdx ∧ y.halted = x.halted

/-- The same, when the rule then offers `n` bytes at `addr` with the toggle that comes next. -/
def ReadOnceThenOffers (s t : State) (e : EpNum) (d : Dir) (addr n : Nat) : Prop :=
  let x := s.epDir e d
  let y := t.epDir e d
  let k := s.active e d
  y.bd k = ⟨addr, n, .hw, !x.nextToggle, false⟩ ∧ y.bd (!k) = x.bd (!k) ∧
  y.nextToggle = (!x.nextToggle) ∧ y.unread (s.rd e d) = false ∧
  y.unread (!s.rd e d) = x.unread (!s.rd e d) ∧
  (∀ j, y.rearmed j = if j = k then true else if j = s.rd e d then false else x.rearmed j) ∧
  y.rdIdx = (if s.cfg.pingpong e d then !s.rd e d else x.rdIdx) ∧ y.hwIdx = x.hwIdx ∧
  y.activeIdx = (if s.cfg.pingpong e d then !k else x.activeIdx) ∧ y.halted = x.halted

/-- A halted direction as `SET_HALT` leaves it: one stalled descriptor of full size where the channel looks
next, everything else with the block (40_arbiter.md R109, R111). -/
def Halts (s t : State) (e : EpNum) (d : Dir) : Prop :=
  let k := s.hw e d
  let x := s.epDir e d
  let y := t.epDir e d
  y.bd k = ⟨s.cfg.epbuf e d k, s.cfg.mps e d, .hw, false, true⟩ ∧ y.bd (!k) = (x.bd (!k)).giveBack ∧
  y.halted = true ∧ y.nextToggle = x.nextToggle ∧ (∀ j, y.unread j = false) ∧
  y.rearmed k = true ∧ y.rearmed (!k) = x.rearmed (!k) ∧
  y.rdIdx = k ∧ y.hwIdx = x.hwIdx ∧ y.activeIdx = x.hwIdx

/-- A halted direction as `CLEAR_HALT` leaves it: the stalled descriptor given back, and the next toggle 0
(40_arbiter.md R110). -/
def Releases (s t : State) (e : EpNum) (d : Dir) : Prop :=
  let k := s.hw e d
  let x := s.epDir e d
  let y := t.epDir e d
  y.bd k = { x.bd k with stall := false, owner := .fw } ∧ y.bd (!k) = x.bd (!k) ∧
  y.halted = false ∧ y.nextToggle = false ∧ y.activeIdx = x.activeIdx ∧ y.hwIdx = x.hwIdx ∧
  y.rdIdx = x.rdIdx ∧ (∀ j, y.unread j = x.unread j) ∧ ∀ j, y.rearmed j = x.rearmed j

/-- A halted direction released and then offered again, with `n` bytes at `addr` and toggle 0. -/
def ReleasesThenOffers (s t : State) (e : EpNum) (d : Dir) (addr n : Nat) : Prop :=
  let k := s.active e d
  let x := s.epDir e d
  let y := t.epDir e d
  y.bd k = ⟨addr, n, .hw, false, false⟩ ∧ y.bd (!k) = x.bd (!k) ∧
  y.halted = false ∧ y.nextToggle = false ∧ y.hwIdx = x.hwIdx ∧
  y.rdIdx = x.rdIdx ∧ (∀ j, y.unread j = x.unread j) ∧ y.rearmed k = true ∧
  y.rearmed (!k) = x.rearmed (!k) ∧
  y.activeIdx = (if s.cfg.pingpong e d then !k else x.activeIdx)

/-- A halted direction as `SET_HALT` leaves one: the descriptor the channel looks at is the next to arm and is
the only one it owns, and no completion is unread (40_arbiter.md R109; 10_state.md R48). -/
def State.haltedClean (s : State) (e : EpNum) (d : Dir) : Prop :=
  let k := s.active e d
  (s.epDir e d).halted = true ∧ s.hw e d = k ∧ ((s.epDir e d).bd k).owner = .hw ∧
  ((s.epDir e d).bd (!k)).owner = .fw ∧ ∀ j, (s.epDir e d).unread j = false

/-- A bulk direction after `flush` (43_msc_bot.md R208): no completion is unread or waits to be read, and, where it is
not halted, what the channel owned has come back and the next to arm is the one it looks at next. -/
def Flushed (s t : State) (e : EpNum) (d : Dir) : Prop :=
  let x := s.epDir e d
  let y := t.epDir e d
  (∀ j, y.bd j = if x.halted then x.bd j else (x.bd j).giveBack) ∧ (∀ j, y.unread j = false) ∧
  y.rdIdx = x.hwIdx ∧ y.hwIdx = x.hwIdx ∧ y.activeIdx = (if x.halted then x.activeIdx else x.hwIdx) ∧
  y.halted = x.halted ∧ y.nextToggle = x.nextToggle ∧ ∀ j, y.rearmed j = x.rearmed j

/-- A direction above endpoint 0 that `DEV_SET_CONFIG` withdrew and started again (42_request_dispatch.md R153): what
the channel owned has come back, no completion is unread, the next to arm and to read is the one the channel looks at
next, and the halt and the toggle are cleared. -/
def Restarted (s t : State) (e : EpNum) (d : Dir) : Prop :=
  let x := s.epDir e d
  let y := t.epDir e d
  (∀ j, y.bd j = (x.bd j).giveBack) ∧ (∀ j, y.unread j = false) ∧ y.rdIdx = x.hwIdx ∧ y.hwIdx = x.hwIdx ∧
  y.activeIdx = x.hwIdx ∧ y.halted = false ∧ y.nextToggle = false ∧ ∀ j, y.rearmed j = x.rearmed j

/-- What the unwinding of a storage operation tells the driver (43_msc_bot.md R209). -/
def unwound (m : Msc) : List Output :=
  match m.op with
  | .write => [.drvWriteBuffer m.wcb false m.wbufFill]
  | .read => [.drvBlockSent false]
  | .none => []

/-- The session's fields after it is destroyed (10_state.md R34). -/
def Session.ended (c : Session) : Session :=
  { c with valid := false, cbValid := false, needsZlp := false, returningShort := false, remaining := 0 }

/-- The event a failed or completed session sends to its callback, if it has one. -/
def Session.report (c : Session) (ok : Bool) : List Output := if c.cbValid then [.completion c.cbId ok] else []

/-- The status stage of a request without a data stage, as `ACCEPT` arms it (41_control_engine.md R134):
endpoint 0 is offered in both directions, a zero-length packet on IN; no buffer is on loan (assumption 36). -/
def StatusStage (s t : State) (cb : Option Nat) : Prop :=
  t.cteState = .status ∧ t.ep0Hold = false ∧
  t.cs = { s.cs with direction := .out, remaining := 0, cbValid := cb.isSome
                     cbId := (match cb with | some k => k | none => s.cs.cbId) } ∧
  t.lentSession = (0, 0) ∧
  Offers s t 0 .inp (s.nextBuf 0 .inp) 0 ∧ Offers s t 0 .out (s.nextBuf 0 .out) s.cfg.mps0 ∧
  t.reply = some (.code .ok)

/-- A Command Status Wrapper built, stored and offered on bulk IN (43_msc_bot.md R191). -/
def SendsCsw (s t : State) (residue : BitVec 32) (status : Byte) : Prop :=
  let e := s.cfg.mscIn
  let p := s.nextBuf e .inp
  t.msc.csw = cswBytes s.msc.currentTag residue status ∧ t.bytes p 13 = t.msc.csw ∧
  SameMemoryOutside s t p 13 ∧ Offers s t e .inp p 13 ∧ t.msc.state = .csw ∧ t.msc.cswArmed = true

/-- The registers of the transport that 43_msc_bot.md R213 does not clear, at the reset values of 10_state.md
R46; `msc.cbw`, `msc.resp`, `msc.csw` and `msc.block_size[]` are kept. -/
def MscIsReset (m r : Msc) : Prop :=
  r = { m.clearTransient with
    state := .idle, lun := 0, hostDir := .out, cbLen := 0, wbufPtr := 0, wbufCap := 0, wcb := 0
    missedPtr := 0 }

/-- The commands of 30_encoding.md R89 that return a result code. -/
def isCommand : Instr → Prop
  | .arm _ _ _ _ | .queryLen _ _ | .setHalt _ _ | .clearHalt _ _ | .epInit | .critEnter | .critExit
  | .startControlReturn _ _ _ | .startReceive _ _ _ | .accept _ | .reject | .devSetAddress _
  | .devSetConfig _ | .mscReset | .mscHaltCleared _ => True
  | _ => False

end Sys2Proof.Machine
end

