-- ==== Sys2Proof/Certificates/Slice0/Obligations.lean ====
section
/-! DEFINITION. The statements for the provers, in the order of OBLIGATIONS.json. Each docstring names the
rule of spec/ it formalises. A statement about a command says the next state it answers in full: what
changes, and that nothing else does. -/

open Sys2Proof Sys2Proof.Machine

/-! ### Decoding and encoding (30_encoding.md) -/

/-- The next input is a record that decodes to `i`: the step is `i` run on the state without that input
(30_encoding.md R94), unless a bus reset that the mask held back comes first (60_exceptions.md R251). -/
def Obligations.StepRunsDecodedInstruction : Prop :=
  ∀ (s : State) (r : InRecord) (rest : List Input) (i : Instr),
    s.cfg.wf = true → (s.busResetPending = true → s.tcIrqEn = false) → s.inputs = .record r :: rest →
    decode s.cfg r = some i → step s = exec i (s.setInputs rest)

/-- Decoding the encoding of a well-formed instruction gives it back, for every row and every operand. -/
def Obligations.DecodeOfEncode : Prop :=
  ∀ (c : Config) (i : Instr), c.wf = true → WellFormed c i = true → decode c (encode c i) = some i

/-- In the formats without padding or ignored fields a record has one meaning: it is the encoding of what
it decodes to. -/
def Obligations.EncodeOfDecode : Prop :=
  ∀ (c : Config) (r : InRecord) (i : Instr), decode c r = some i →
    r.port = .tc ∨ r.port = .setupWire ∨ r.port = .setupRequest ∨ r.port = .cbw31 ∨ r.port = .csw13 →
    encode c i = r

/-- Words written out from the tables of 30_encoding.md and 42_request_dispatch.md, one per format, and a
descriptor word whose reserved bits are set (R92: ignored on read). In the `BDCTL` clauses the bytes after the
control word, which name the descriptor, are this model's own record layout (assumption 2). -/
def Obligations.WrittenWordsDecode : Prop :=
  decode Config.cfg1 ⟨.op, [0x54]⟩ = some .mscReset ∧
  decode Config.cfg1 ⟨.tc, [0x1A]⟩ = some .mscIn ∧
  decode Config.cfg1 ⟨.setupWire, [0x80, 0x06, 0x00, 0x01, 0x00, 0x00, 0x40, 0x00]⟩ =
    some (.setup .wire ⟨0x80, 0x06, 0x0100, 0x0000, 0x0040⟩) ∧
  decode Config.cfg1 ⟨.setupRequest, [0x02, 0x01, 0x00, 0x00, 0x81, 0x00, 0x00, 0x00]⟩ =
    some (.clearFeatureEndpointHalt 0x0081) ∧
  decode Config.cfg1 ⟨.csw13, [0x55, 0x53, 0x42, 0x53, 0x44, 0x33, 0x22, 0x11, 0xDC, 0x01, 0, 0, 0]⟩ =
    some (.csw 0x11223344 476 0) ∧
  decode Config.cfg1 ⟨.cdb, [0x28, 0, 0, 0, 0x03, 0xE4, 0, 0, 4, 0]⟩ = some (.read10 996 4) ∧
  decode Config.cfg1 ⟨.bdctl, [0x08, 0xC0, 0x80, 0x00]⟩ = some (.bdArmed 0 .inp false true 8) ∧
  decode Config.cfg1 ⟨.bdctl, [0x08, 0xDC, 0x80, 0x00]⟩ = some (.bdArmed 0 .inp false true 8)

/-! ### Invariants and whole-machine rules -/

/-- The reset state meets every invariant. -/
def Obligations.ResetMeetsInvariants : Prop :=
  State.reset.Inv ∧ State.reset.haltOk ∧ State.reset.ep0Ok ∧ State.reset.orderOk

/-- Every step keeps buffer memory in its canonical form, and never changes the configuration. And what the
environment writes (20_memory.md R60, R74): bytes outside every buffer the channel or the block owns are stored,
and a write that touches one is refused (93_implementation_defined.md U1). Which buffers those are
(`State.foreignBuffers`, 70_reset_and_hazards.md R275, R277) is read as assumptions 7 and 36 say. -/
def Obligations.StepKeepsMemoryCanonical : Prop :=
  (∀ s t : State, s.memoryOk → step s = .next t → t.memoryOk ∧ t.cfg = s.cfg) ∧
  ∀ (s : State) (addr : Nat) (bs : List Byte) (rest : List Input),
    s.cfg.wf = true → (s.busResetPending = true → s.tcIrqEn = false) → s.memoryOk →
    s.inputs = .memWrite addr bs :: rest →
    let touches (b : Nat × Nat) : Prop := ∃ x, (addr ≤ x ∧ x < addr + bs.length) ∧ b.1 ≤ x ∧ x < b.1 + b.2
    ((∃ b ∈ s.foreignBuffers, touches b) → step s = .refused .foreignBufferWrite) ∧
    ((∀ b ∈ s.foreignBuffers, ¬touches b) → addr + bs.length ≤ s.cfg.memSize →
      ∃ t, step s = .next t ∧ t.bytes addr bs.length = bs ∧ SameMemoryOutside s t addr bs.length ∧
        t = { s with mem := t.mem, inputs := rest })

/-- 10_state.md R34: every step keeps the session and the engine's state in agreement. -/
def Obligations.StepKeepsSession : Prop :=
  ∀ s t : State, s.sessionOk → step s = .next t → t.sessionOk

/-- 10_state.md R50: every step keeps the transport's counters in order. -/
def Obligations.StepKeepsCounters : Prop :=
  ∀ s t : State, s.countersOk → s.pumpOk → step s = .next t → t.countersOk ∧ t.pumpOk

/-- 10_state.md R36: every step keeps the gate of an unconfigured device closed. -/
def Obligations.StepKeepsConfigurationGate : Prop :=
  ∀ s t : State, s.gateOk → step s = .next t → t.gateOk

/-- 10_state.md R21, R33, R38 to R42: every step keeps every register of a fixed width within it: descriptor
counts, the session's and the transport's counters, the case, the status, and the byte registers. The registers
whose widths are `ADDR_W` and `CB_W` are not among them. That the bytes transferred stay within 32 bits rests on
the counters being in order. -/
def Obligations.StepKeepsWidths : Prop :=
  ∀ s t : State, s.countersOk → s.pumpOk → s.widthsOk → step s = .next t → t.widthsOk

/-- 10_state.md R48, with R49 for the halt of endpoint 0 IN: every instruction keeps halt and stall in
agreement, and the facts about endpoint 0 that make it so. Only an `EP_INIT` given by itself between a SETUP
and its disposition breaks those facts (it ends the hold, assumption 33), and it too keeps the agreement. And
R47: where halt and stall agree, every instruction keeps the descriptors the channel owns in the order of the
indices; after a SETUP that ends a halt of endpoint 0 OUT this rests on assumption 37. -/
def Obligations.HaltAndStallAgree : Prop :=
  ∀ (s t : State) (i : Instr), s.cfg.wf = true → s.haltOk → s.ep0Ok → exec i s = .next t →
    t.haltOk ∧ ((i = .epInit → s.cteState ≠ .setupReceived) → t.ep0Ok) ∧ (s.orderOk → t.orderOk)

/-- 10_state.md R39: outside `IDLE` no instruction changes the latched CBW; nor what was derived from it, but
for the two resets, which clear it (R46) and leave the transport in `IDLE`. -/
def Obligations.LatchedCbwIsImmutable : Prop :=
  ∀ (s t : State) (i : Instr), s.msc.state ≠ .idle → exec i s = .next t →
    t.msc.cbw = s.msc.cbw ∧
    ((t.msc.lun = s.msc.lun ∧ t.msc.hostDir = s.msc.hostDir ∧ t.msc.cbLen = s.msc.cbLen) ∨
      ((i = .stackInit ∨ i = .busReset) ∧ t.msc.state = .idle))

/-- 43_msc_bot.md R195, R170: no instruction leaves `NRR` but the reset of the transport, the selection
of a configuration, and the two resets of the block; and each leads to `IDLE`. -/
def Obligations.NrrIsLeftByResetOnly : Prop :=
  ∀ (s t : State) (i : Instr), s.msc.state = .nrr → exec i s = .next t →
    t.msc.state = .nrr ∨ (i = .mscReset ∨ i = .busReset ∨ i = .stackInit ∨ i = .bulkOnlyMassStorageReset ∨
      (∃ v, i = .devSetConfig v) ∨ ∃ v x, i = .setConfiguration v x) ∧ t.msc.state = .idle

/-- Who writes `setup`, `tc_irq_en` and `dev.address`: every other instruction leaves them
(10_state.md R30, R32, R35). -/
def Obligations.WritersOfLatches : Prop :=
  ∀ (s t : State) (i : Instr), s.cfg.wf = true → WellFormed s.cfg i = true → exec i s = .next t →
    (t.setup = s.setup ∨ (∃ x, i = .evTc x) ∨ i = .cteSetup ∨ ∃ p, i = .setup .wire p) ∧
    (t.tcIrqEn = s.tcIrqEn ∨ i = .critEnter ∨ i = .critExit ∨ i = .stackInit) ∧
    (t.dev.address = s.dev.address ∨ (∃ x, i = .evTc x) ∨ i = .cteIn ∨ i = .cteOut ∨ i = .busReset ∨
      i = .stackInit)

/-- 30_encoding.md R91: a command that returns a code other than `OK` has changed no state. -/
def Obligations.RejectedCommandChangesNothing : Prop :=
  ∀ (s t : State) (i : Instr) (r : ResultCode), isCommand i → exec i s = .next t →
    t.reply = some (.code r) → r ≠ .ok → t = s.answer (.code r)

/-! ### The arbiter (40_arbiter.md) -/

/-- R100: `ARM`, every outcome for an endpoint of the table. The toggle is the next toggle, inverted for an
odd number of transactions outstanding. -/
def Obligations.ArmOffersDescriptor : Prop :=
  ∀ (s : State) (e : EpNum) (d : Dir) (addr n : Nat),
    let x := s.epDir e d
    let k := s.active e d
    let gated := e ≠ 0 ∧ s.dev.configurationValue = 0
    (s.cfg.nEp ≤ e.val → exec (.arm e d addr n) s = .refused .endpointOutOfTable) ∧
    (e.val < s.cfg.nEp → gated →
      exec (.arm e d addr n) s = .next (s.answer (.code .errNotConfigured))) ∧
    (e.val < s.cfg.nEp → ¬gated → n > s.cfg.mps e d →
      exec (.arm e d addr n) s = .next (s.answer (.code .errArg))) ∧
    (e.val < s.cfg.nEp → ¬gated → n ≤ s.cfg.mps e d → x.halted = true →
      exec (.arm e d addr n) s = .next (s.answer (.code .errHalted))) ∧
    (e.val < s.cfg.nEp → ¬gated → n ≤ s.cfg.mps e d → x.halted = false →
      (x.bd k).owner = .hw ∨ x.unread k = true →
      exec (.arm e d addr n) s = .next (s.answer (.code .errOwner))) ∧
    (e.val < s.cfg.nEp → ¬gated → n ≤ s.cfg.mps e d → x.halted = false → (x.bd k).owner = .fw →
      x.unread k = false →
      ∃ t, exec (.arm e d addr n) s = .next t ∧
        (t.epDir e d).bd k = ⟨addr, n, .hw,
          x.nextToggle ^^ decide ((s.armedCount e d + s.unreadCount e d) % 2 = 1), false⟩ ∧
        (t.epDir e d).bd (!k) = x.bd (!k) ∧ (t.epDir e d).halted = false ∧
        (t.epDir e d).nextToggle = x.nextToggle ∧ (t.epDir e d).hwIdx = x.hwIdx ∧
        (t.epDir e d).rdIdx = x.rdIdx ∧ (∀ j, (t.epDir e d).unread j = x.unread j) ∧
        (t.epDir e d).activeIdx = (if s.cfg.pingpong e d then !k else x.activeIdx) ∧
        SameDirsBut s t e d ∧ SameMemory s t ∧ t = { s with eps := t.eps, reply := some (.code .ok) })

/-- R106: `QUERY_LEN` returns the count of the descriptor whose completion was consumed last, or `ERR_OWNER`
if that descriptor has been armed again since, and writes nothing; the configuration gate goes first
(92_eei_decisions.md D26). That a descriptor has been armed since is remembered in a bit of the model's own (assumption
32): a successful `ARM` sets it, consuming a completion clears it, `EP_INIT` sets it where it arms, and these leave the
others alone. An endpoint number outside the table, however large, is `ERR_ARG` (60_exceptions.md R247, assumption
17). -/
def Obligations.QueryLenReturnsCount : Prop :=
  (∀ (s : State) (e : Nat) (d : Dir), s.cfg.nEp ≤ e →
    exec (.queryLen e d) s = .next (s.answer (.code .errArg))) ∧
  (∀ (s : State) (e : EpNum) (d : Dir), e.val < s.cfg.nEp →
    let k := if s.cfg.pingpong e d then !(s.epDir e d).rdIdx else false
    let x := s.epDir e d
    (e ≠ 0 → s.dev.configurationValue = 0 →
      exec (.queryLen e d) s = .next (s.answer (.code .errNotConfigured))) ∧
    (e = 0 ∨ s.dev.configurationValue ≠ 0 → (x.bd k).owner = .fw → x.unread k = false →
      x.rearmed k = false → exec (.queryLen e d) s = .next (s.answer (.length (x.bd k).count))) ∧
    (e = 0 ∨ s.dev.configurationValue ≠ 0 →
      (x.bd k).owner = .hw ∨ x.unread k = true ∨ x.rearmed k = true →
      exec (.queryLen e d) s = .next (s.answer (.code .errOwner)))) ∧
  ∀ (s t : State) (e : EpNum) (d : Dir) (j : Bool),
    (∀ a n, exec (.arm e d a n) s = .next t → t.reply = some (.code .ok) →
      (t.epDir e d).rearmed j = if j = s.active e d then true else (s.epDir e d).rearmed j) ∧
    (exec .epInit s = .next t →
      (t.epDir e d).rearmed j = if e = 0 ∧ d = .out ∧ j = false then true else (s.epDir e d).rearmed j) ∧
    ∀ (p : Pid) (rest : List Tc), s.tcIrqEn = true → s.tcq = ⟨e, p⟩ :: rest → e ≠ 0 →
      s.isMsc e p.dir = false → exec (.evTc ⟨e, p⟩) s = .next t →
      (t.epDir e p.dir).rearmed j = if j = s.rd e p.dir then false else (s.epDir e p.dir).rearmed j

/-- R109: `SET_HALT` given as a command, every outcome, for an endpoint number of any size; with 43_msc_bot.md R193,
R214. -/
def Obligations.SetHaltHaltsDirection : Prop :=
  ∀ (s : State) (e : EpNum) (d : Dir),
    let x := s.epDir e d
    let busy := ((e = s.cfg.mscIn ∧ d = .inp) ∨ (e = s.cfg.mscOut ∧ d = .out)) ∧
      (s.msc.state = .dataIn ∨ s.msc.state = .dataOut)
    (∀ n : Nat, s.cfg.nEp ≤ n ∨ n = 0 → exec (.setHalt n d) s = .next (s.answer (.code .errArg))) ∧
    (e.val < s.cfg.nEp → e ≠ 0 → s.dev.configurationValue = 0 →
      exec (.setHalt e d) s = .next (s.answer (.code .errNotConfigured))) ∧
    (e.val < s.cfg.nEp → e ≠ 0 → s.dev.configurationValue ≠ 0 → busy →
      exec (.setHalt e d) s = .next (s.answer (.code .errState))) ∧
    (e.val < s.cfg.nEp → e ≠ 0 → s.dev.configurationValue ≠ 0 → ¬busy → x.halted = true →
      exec (.setHalt e d) s = .next (s.answer (.code .ok))) ∧
    (e.val < s.cfg.nEp → e ≠ 0 → s.dev.configurationValue ≠ 0 → ¬busy → x.halted = false →
      ∃ t, exec (.setHalt e d) s = .next t ∧ Halts s t e d ∧
        (t.tcq = s.tcq.filter fun c => !(c.e == e && c.d == d)) ∧
        (t.msc = if e = s.cfg.mscIn ∧ d = .inp ∧ s.msc.cswArmed = true then
          { s.msc with cswArmed := false } else s.msc) ∧
        SameDirsBut s t e d ∧ SameMemory s t ∧
        t = { s with eps := t.eps, tcq := t.tcq, msc := t.msc, reply := some (.code .ok) })

/-- R110: `CLEAR_HALT` of a direction that is not halted, of a bulk direction in `NRR`, of a direction that is
not the transport's, and, with 43_msc_bot.md R194, of a bulk direction in `IDLE`: bulk OUT is offered again,
and nothing more happens. An endpoint number outside the table, however large, is `ERR_ARG`. That endpoint 0 not
halted answers `OK` in every state is DEDUCED (assumption 26: R110 against 70_reset_and_hazards.md R274). -/
def Obligations.ClearHaltReleasesDirection : Prop :=
  ∀ (s : State) (e : EpNum) (d : Dir),
    let x := s.epDir e d
    let open_ := e = 0 ∨ s.dev.configurationValue ≠ 0
    (∀ n : Nat, s.cfg.nEp ≤ n → exec (.clearHalt n d) s = .next (s.answer (.code .errArg))) ∧
    (e.val < s.cfg.nEp → e ≠ 0 → s.dev.configurationValue = 0 →
      exec (.clearHalt e d) s = .next (s.answer (.code .errNotConfigured))) ∧
    (e.val < s.cfg.nEp → open_ → x.halted = false ∨ (s.isMsc e d = true ∧ s.msc.state = .nrr) →
      exec (.clearHalt e d) s = .next (s.answer (.code .ok))) ∧
    (e.val < s.cfg.nEp → open_ → x.halted = true →
      s.isMsc e d = false ∨ (e = s.cfg.mscIn ∧ d = .inp ∧ s.msc.state = .idle) →
      ∃ t, exec (.clearHalt e d) s = .next t ∧ Releases s t e d ∧ SameDirsBut s t e d ∧ SameMemory s t ∧
        t = { s with eps := t.eps, reply := some (.code .ok) }) ∧
    (s.cfg.wf = true → s.dev.configurationValue ≠ 0 → e = s.cfg.mscOut → d = .out → s.msc.state = .idle →
      s.haltedClean e d →
      ∃ t, exec (.clearHalt e d) s = .next t ∧
        ReleasesThenOffers s t e d (s.nextBuf e d) (s.cfg.mps e d) ∧ SameDirsBut s t e d ∧ SameMemory s t ∧
        t = { s with eps := t.eps, reply := some (.code .ok) })

/-- 43_msc_bot.md R194, with R110: clearing the halt of bulk IN, or of bulk OUT, in `STALL` or `CSW` releases
the CSW behind it; one released by clearing bulk IN goes out with toggle 0, and bulk OUT is offered again. If
bulk IN is halted too, clearing bulk OUT only offers it again, and the CSW waits; that the transport then stays in
`STALL` is DEDUCED (assumption 38). -/
def Obligations.ClearHaltReleasesCsw : Prop :=
  ∀ s : State, s.cfg.wf = true → s.memoryOk → s.dev.configurationValue ≠ 0 →
    (s.msc.state = .stall ∨ s.msc.state = .csw) → s.msc.cswArmed = false → s.msc.inArmed = false →
    let ei := s.cfg.mscIn
    let eo := s.cfg.mscOut
    let p := s.nextBuf ei .inp
    let b := cswBytes s.msc.currentTag (BitVec.ofNat 32 s.msc.residue) s.msc.status
    let sent : Msc := { s.msc with csw := b, state := .csw, cswArmed := true }
    (s.haltedClean ei .inp → p + 13 ≤ s.cfg.memSize →
      ∃ t, exec (.clearHalt ei .inp) s = .next t ∧ ReleasesThenOffers s t ei .inp p 13 ∧
        t.bytes p 13 = b ∧ SameMemoryOutside s t p 13 ∧ SameDirsBut s t ei .inp ∧
        t = { s with eps := t.eps, mem := t.mem, msc := sent, reply := some (.code .ok) }) ∧
    (s.haltedClean eo .out → s.clear ei .inp → p + 13 ≤ s.cfg.memSize →
      ∃ t, exec (.clearHalt eo .out) s = .next t ∧
        ReleasesThenOffers s t eo .out (s.nextBuf eo .out) (s.cfg.mps eo .out) ∧
        Offers s t ei .inp p 13 ∧ t.bytes p 13 = b ∧ SameMemoryOutside s t p 13 ∧
        (∀ e d, s.isMsc e d = false → t.epDir e d = s.epDir e d) ∧
        t = { s with eps := t.eps, mem := t.mem, msc := sent, reply := some (.code .ok) }) ∧
    (s.haltedClean eo .out → (s.epDir ei .inp).halted = true →
      ∃ t, exec (.clearHalt eo .out) s = .next t ∧
        ReleasesThenOffers s t eo .out (s.nextBuf eo .out) (s.cfg.mps eo .out) ∧
        SameDirsBut s t eo .out ∧ SameMemory s t ∧ t = { s with eps := t.eps, reply := some (.code .ok) })

/-- R112: `EP_INIT`. -/
def Obligations.EpInitResetsEndpoints : Prop :=
  ∀ s : State, ∃ t, exec .epInit s = .next t ∧
    (∀ e d, (t.epDir e d).halted = false ∧ (t.epDir e d).nextToggle = false ∧
      (t.epDir e d).hwIdx = false ∧ (t.epDir e d).rdIdx = false ∧
      (∀ k, (t.epDir e d).unread k = false ∧ ((t.epDir e d).bd k).stall = false)) ∧
    (∀ e d, e ≠ 0 ∨ d = .inp → (t.epDir e d).activeIdx = false ∧
      ∀ k, (t.epDir e d).bd k = { (s.epDir e d).bd k with stall := false, owner := .fw }) ∧
    (t.epDir 0 .out).bd false = ⟨s.cfg.epbuf 0 .out false, s.cfg.mps0, .hw, false, false⟩ ∧
    (t.epDir 0 .out).bd true = { (s.epDir 0 .out).bd true with stall := false, owner := .fw } ∧
    (t.epDir 0 .out).activeIdx = s.cfg.pingpong 0 .out ∧
    t.tcq = [] ∧ t.ep0Hold = false ∧ SameMemory s t ∧
    t = { s with eps := t.eps, tcq := [], ep0Hold := false, reply := some (.code .ok) }

/-! ### The Control Transfer Engine (41_control_engine.md) -/

/-- R123, R124, R126: `START_CONTROL_RETURN` with `0 < req`: the first chunk is copied and offered, endpoint
0 OUT is offered, and the session records what is left. That the buffer is on loan is recorded in a field of the
model's own (assumption 36). -/
def Obligations.ControlReturnSendsFirstChunk : Prop :=
  ∀ (s : State) (ptr avail req : Nat), s.memoryOk → s.cteState = .setupReceived →
    (65535 < req → exec (.startControlReturn ptr avail req) s = .next (s.answer (.code .errArg))) ∧
    (0 < req → req ≤ 65535 → s.clear 0 .inp → s.clear 0 .out →
      let total := min avail req
      let n := min total s.cfg.mps0
      let p := s.nextBuf 0 .inp
      ptr + n ≤ s.cfg.memSize → p + n ≤ s.cfg.memSize →
      ∃ t, exec (.startControlReturn ptr avail req) s = .next t ∧
        t.cs = { s.cs with
          direction := .inp, cursor := ptr + n, remaining := total - n, lastLen := n, cbValid := false
          returningShort := decide (total < req)
          needsZlp := decide (total - n = 0 ∧ n = s.cfg.mps0 ∧ total < req) } ∧
        Offers s t 0 .inp p n ∧ Offers s t 0 .out (s.nextBuf 0 .out) s.cfg.mps0 ∧ SameAboveZero s t ∧
        Copied s t p ptr n ∧ SameMemoryOutside s t p n ∧
        t = { s with eps := t.eps, mem := t.mem, cs := t.cs, cteState := .dataIn, ep0Hold := false
                     lentSession := (ptr, avail), reply := some (.code .ok) })

/-- R134, and R123 with `req = 0`: the status stage of a request without a data stage. That neither lends a buffer
is the model's choice (assumption 36). -/
def Obligations.AcceptArmsStatusStage : Prop :=
  ∀ (s : State) (cb : Option Nat), s.cteState = .setupReceived → s.clear 0 .inp → s.clear 0 .out →
    ∃ t, exec (.accept cb) s = .next t ∧
      (cb = none → ∀ ptr avail, exec (.startControlReturn ptr avail 0) s = .next t) ∧
      StatusStage s t cb ∧ SameAboveZero s t ∧ SameMemory s t ∧
      t = { s with eps := t.eps, cs := t.cs, cteState := .status, ep0Hold := false
                   lentSession := (0, 0), reply := some (.code .ok) }

/-- R129: `START_RECEIVE`, with and without a data stage. -/
def Obligations.ReceiveArmsDataStage : Prop :=
  ∀ (s : State) (buf expected cb : Nat), s.cteState = .setupReceived →
    (65535 < expected → exec (.startReceive buf expected cb) s = .next (s.answer (.code .errArg))) ∧
    (expected ≤ 65535 → s.clear 0 .inp → s.clear 0 .out →
      ∃ t, exec (.startReceive buf expected cb) s = .next t ∧
        t.cteState = (if expected = 0 then .status else .dataOut) ∧
        t.cs = { s.cs with direction := .out, cursor := buf, remaining := expected, cbValid := true
                           cbId := cb } ∧
        (expected = 0 → Offers s t 0 .inp (s.nextBuf 0 .inp) 0) ∧
        (expected ≠ 0 → t.epDir 0 .inp = s.epDir 0 .inp) ∧
        Offers s t 0 .out (s.nextBuf 0 .out) s.cfg.mps0 ∧ SameAboveZero s t ∧ SameMemory s t ∧
        t = { s with eps := t.eps, cs := t.cs, cteState := t.cteState, ep0Hold := false
                     lentSession := (buf, expected), reply := some (.code .ok) })

/-- R135: `REJECT` stalls endpoint 0 IN for a request with an IN data stage, and both directions
otherwise. -/
def Obligations.RejectStallsEndpointZero : Prop :=
  ∀ s : State, s.cfg.wf = true → s.cteState = .setupReceived → s.clear 0 .inp → s.clear 0 .out →
    let inStage := s.setup.bmRequestType.getLsbD 7 = true ∧ s.setup.wLength ≠ 0
    ∃ t, exec .reject s = .next t ∧ Halts s t 0 .inp ∧
      (inStage → Offers s t 0 .out (s.nextBuf 0 .out) s.cfg.mps0) ∧
      (¬inStage → Halts s t 0 .out) ∧ t.cs = s.cs.ended ∧
      (t.tcq = s.tcq.filter fun c => !(c.e == 0 && (c.d == .inp || !decide inStage))) ∧
      SameAboveZero s t ∧ SameMemory s t ∧
      t = { s with eps := t.eps, tcq := t.tcq, cs := t.cs, cteState := .idle, ep0Hold := false
                   reply := some (.code .ok) }

/-- R141, with 42_request_dispatch.md R152, R153: outside `SETUP_RECEIVED` the disposition and
device-state commands return `ERR_STATE` and change nothing; and a disposition that returns `OK` has moved the
engine out of `SETUP_RECEIVED`, so that a second one for the same SETUP is refused. -/
def Obligations.DispositionOutsideSetupReceived : Prop :=
  let disposes (i : Instr) : Prop :=
    (∃ p a r, i = .startControlReturn p a r) ∨ (∃ b x k, i = .startReceive b x k) ∨ (∃ k, i = .accept k) ∨
      i = .reject
  (∀ (s : State) (i : Instr), s.cteState ≠ .setupReceived →
    disposes i ∨ (∃ a, i = .devSetAddress a) ∨ (∃ v, i = .devSetConfig v) →
    exec i s = .next (s.answer (.code .errState))) ∧
  ∀ (s t : State) (i j : Instr), disposes i → disposes j → exec i s = .next t →
    t.reply = some (.code .ok) → t.cteState ≠ .setupReceived ∧ exec j t = .next (t.answer (.code .errState))

/-! ### Device state and resets (42_request_dispatch.md, 70_reset_and_hazards.md) -/

/-- 42_request_dispatch.md R152: `DEV_SET_ADDRESS`, for an operand of any size. -/
def Obligations.DevSetAddressHoldsAddress : Prop :=
  ∀ (s : State) (a : Nat), s.cteState = .setupReceived →
    (127 < a → exec (.devSetAddress a) s = .next (s.answer (.code .errArg))) ∧
    (a ≤ 127 → exec (.devSetAddress a) s = .next { s with
      dev := { s.dev with pendingAddress := BitVec.ofNat 7 a, pendingValid := true }
      reply := some (.code .ok) })

/-- 42_request_dispatch.md R153: `DEV_SET_CONFIG`: a value the device does not offer, or one of no byte, is
`ERR_ARG`; else every direction above endpoint 0 is withdrawn and started again, and with a value that is not 0 bulk
OUT is then offered for a CBW. -/
def Obligations.DevSetConfigRestartsEndpoints : Prop :=
  ∀ (s : State) (v : Byte), s.cfg.wf = true → s.cteState = .setupReceived →
    (∀ n : Nat, 255 < n → exec (.devSetConfig n) s = .next (s.answer (.code .errArg))) ∧
    (v ≠ 0 → v ∉ s.cfg.configValues → exec (.devSetConfig v.toNat) s = .next (s.answer (.code .errArg))) ∧
    (v = 0 ∨ v ∈ s.cfg.configValues →
      ∃ t, exec (.devSetConfig v.toNat) s = .next t ∧ t.dev = { s.dev with configurationValue := v } ∧
        (t.tcq = s.tcq.filter fun c => c.e == 0) ∧
        (∀ e d, e ≠ 0 → (t.epDir e d).halted = false ∧ (t.epDir e d).nextToggle = false ∧
          (t.epDir e d).hwIdx = (s.epDir e d).hwIdx ∧ (t.epDir e d).rdIdx = (s.epDir e d).hwIdx ∧
          ∀ k, (t.epDir e d).unread k = false) ∧
        (∀ e d, e ≠ 0 → (e ≠ s.cfg.mscOut ∨ d ≠ .out ∨ v = 0) → Restarted s t e d) ∧
        (v ≠ 0 → ∃ u : State, u.cfg = s.cfg ∧ Restarted s u s.cfg.mscOut .out ∧
          Offers u t s.cfg.mscOut .out (u.nextBuf s.cfg.mscOut .out) (s.cfg.mps s.cfg.mscOut .out)) ∧
        (v ≠ 0 → ((t.epDir s.cfg.mscOut .out).bd (s.hw s.cfg.mscOut .out)) =
          ⟨s.cfg.epbuf s.cfg.mscOut .out (s.hw s.cfg.mscOut .out), s.cfg.mps s.cfg.mscOut .out, .hw, false,
            false⟩) ∧
        (∀ d, t.epDir 0 d = s.epDir 0 d) ∧ t.msc = { s.msc.clearTransient with state := .idle } ∧
        t.outputs = s.outputs ++ unwound s.msc ∧ SameMemory s t ∧
        t = { s with eps := t.eps, tcq := t.tcq, dev := t.dev, msc := t.msc, outputs := t.outputs
                     reply := some (.code .ok) })

/-- 70_reset_and_hazards.md R270: `STACK_INIT`: the endpoint table is the one `EP_INIT` leaves. That the
registers 10_state.md R46 calls unspecified keep their bits is the model's choice (assumption 4), as is what the
other fields of the transport are (assumption 23). -/
def Obligations.StackInitState : Prop :=
  ∀ s : State, ∃ t, exec .stackInit s = .next t ∧
    t.cs = { s.cs with valid := false, cbValid := false, needsZlp := false, returningShort := false } ∧
    t.dev = { s.dev with configurationValue := 0, pendingValid := false, address := 0 } ∧
    MscIsReset s.msc t.msc ∧
    (∀ e d, (t.epDir e d).halted = false ∧ (t.epDir e d).nextToggle = false ∧
      ((e ≠ 0 ∨ d = .inp) → ∀ k, ((t.epDir e d).bd k).owner = .fw)) ∧
    (t.epDir 0 .out).bd false = ⟨s.cfg.epbuf 0 .out false, s.cfg.mps0, .hw, false, false⟩ ∧
    ((t.epDir 0 .out).bd true).owner = .fw ∧ (∃ u, exec .epInit s = .next u ∧ u.eps = t.eps) ∧
    SameMemory s t ∧
    t = { s with eps := t.eps, tcq := [], ep0Hold := false, tcIrqEn := true, cteState := .idle
                 cs := t.cs, dev := t.dev, msc := t.msc, sense := ⟨0, 0⟩ }

/-- 70_reset_and_hazards.md R271: `BUS_RESET` taken: the session fails first, then a storage operation is
unwound, the endpoint table is the one `EP_INIT` leaves, and the registers hold their reset values. While
`tc_irq_en = 0` it is not taken: that such a step answers a next state, and that the signal is remembered, is
the model's choice (assumptions 9, 10), as are the registers R46 calls unspecified (4) and the transport's other
fields (23). -/
def Obligations.BusResetAbortsAndResets : Prop :=
  ∀ s : State,
    (s.tcIrqEn = false → ∃ t, exec .busReset s = .next t ∧
      t = { s with busResetPending := t.busResetPending }) ∧
    (s.tcIrqEn = true → ∃ t, exec .busReset s = .next t ∧
    t.outputs = s.outputs ++ (if s.cteState ≠ .idle then s.cs.report false else []) ++ unwound s.msc ∧
    t.dev = { s.dev with configurationValue := 0, pendingValid := false, address := 0 } ∧
    MscIsReset s.msc t.msc ∧
    t.cs = (if s.cteState ≠ .idle then s.cs.ended else s.cs) ∧
    (∀ e d, (t.epDir e d).halted = false ∧ (t.epDir e d).nextToggle = false ∧
      ((e ≠ 0 ∨ d = .inp) → ∀ k, ((t.epDir e d).bd k).owner = .fw)) ∧
    (t.epDir 0 .out).bd false = ⟨s.cfg.epbuf 0 .out false, s.cfg.mps0, .hw, false, false⟩ ∧
    (∃ u, exec .epInit s = .next u ∧ u.eps = t.eps) ∧ SameMemory s t ∧
    t = { s with eps := t.eps, tcq := [], ep0Hold := false, cteState := .idle, cs := t.cs, dev := t.dev
                 msc := t.msc, outputs := t.outputs, busResetPending := false })

/-! ### The transport's notifications and reset (43_msc_bot.md) -/

/-- R198, R196: `EV_BLOCK_READY` within its `require`: the first packet of the block is copied and offered
on bulk IN; outside it the step is refused (93_implementation_defined.md U4). That the block is on loan is
recorded in a field of the model's own (assumption 36). -/
def Obligations.BlockReadyPumpsPacket : Prop :=
  ∀ (s : State) (ptr len : Nat),
    let ok := s.msc.state = .dataIn ∧ s.msc.txSrc = .driver ∧ s.msc.op = .read ∧ s.msc.inArmed = false ∧
      s.msc.txRem = 0 ∧ len > 0
    (¬ok → exec (.evBlockReady ptr len) s = .refused .notificationRequire) ∧
    (ok → s.msc.transferred = s.msc.intentLen → exec (.evBlockReady ptr len) s = .next s) ∧
    (ok → s.memoryOk → s.cfg.wf = true → s.dev.configurationValue ≠ 0 → s.clear s.cfg.mscIn .inp →
      s.msc.transferred < s.msc.intentLen →
      let e := s.cfg.mscIn
      let m := min len (s.msc.intentLen - s.msc.transferred)
      let n := min m (s.cfg.mps e .inp)
      let p := s.nextBuf e .inp
      ptr + n ≤ s.cfg.memSize → p + n ≤ s.cfg.memSize →
      ∃ t, exec (.evBlockReady ptr len) s = .next t ∧
        t.msc = { s.msc with txPtr := ptr + n, txRem := m - n, txLast := n, inArmed := true } ∧
        Offers s t e .inp p n ∧ SameDirsBut s t e .inp ∧ Copied s t p ptr n ∧
        SameMemoryOutside s t p n ∧
        t = { s with eps := t.eps, mem := t.mem, msc := t.msc, lentBlock := (ptr, len) })

/-- R199, R200: `EV_READ_COMPLETE`: its refusal; while a packet is in flight, the outcome is recorded; with none
in flight the data phase ends, whether the read succeeded or not: fewer bytes than the host asked for stall bulk
IN, and as many send the CSW. -/
def Obligations.ReadCompleteRecordsOutcome : Prop :=
  ∀ (s : State) (ok : Bool),
    let m := s.msc
    let e := s.cfg.mscIn
    let failed := ok = false ∨ m.transferred + m.txRem + m.inFlight < m.intentLen
    let status : Byte := if failed then 1 else m.status
    let left := if failed then 0 else m.txRem
    let sense := if failed then s.cfg.sense .readError else s.sense
    (¬(m.state = .dataIn ∧ m.op = .read) → exec (.evReadComplete ok) s = .refused .notificationRequire) ∧
    (m.state = .dataIn → m.op = .read → m.inArmed = true →
      exec (.evReadComplete ok) s = .next { s with
        msc := { m with op := .none, status := status, txRem := left }, sense := sense }) ∧
    (m.state = .dataIn → m.op = .read → m.inArmed = false → m.transferred < m.requested →
      s.cfg.wf = true → s.dev.configurationValue ≠ 0 → (s.epDir e .inp).halted = false →
      ∃ t, exec (.evReadComplete ok) s = .next t ∧
        t.msc = { m with op := .none, status := status, txRem := left
                         residue := m.requested - m.transferred, state := .stall } ∧
        (t.tcq = s.tcq.filter fun c => !(c.e == e && c.d == .inp)) ∧
        Halts s t e .inp ∧ SameDirsBut s t e .inp ∧ SameMemory s t ∧
        t = { s with eps := t.eps, tcq := t.tcq, msc := t.msc, sense := sense }) ∧
    (m.state = .dataIn → m.op = .read → m.inArmed = false → m.requested ≤ m.transferred →
      m.cswArmed = false → s.cfg.wf = true → s.memoryOk → s.dev.configurationValue ≠ 0 → s.clear e .inp →
      s.nextBuf e .inp + 13 ≤ s.cfg.memSize →
      ∃ t, exec (.evReadComplete ok) s = .next t ∧ SendsCsw s t 0 status ∧
        t.msc = { m with op := .none, status := status, txRem := left, residue := 0, csw := t.msc.csw
                         state := .csw, cswArmed := true } ∧
        SameDirsBut s t e .inp ∧ t = { s with eps := t.eps, mem := t.mem, msc := t.msc, sense := sense })

/-- R205, R202, R204: `EV_WRITE_DATA_HANDLED`: its refusal, the buffer empty again, and the packet held meanwhile
replayed the instant the buffer reopens: one that fits is stored; one that does not is a protocol error, of which
no byte is stored, and which cancels the write and stalls bulk OUT. That an empty packet at the end of the data
phase hands the buffer over again is DEDUCED (assumption 39). -/
def Obligations.WriteDataHandledReopensBuffer : Prop :=
  ∀ s : State,
    let ok := s.msc.state = .dataOut ∧ s.msc.op = .write ∧ s.msc.awaitingDrain = true
    (¬ok → exec .evWriteDataHandled s = .refused .notificationRequire) ∧
    (ok → s.msc.missed = 0 → exec .evWriteDataHandled s = .next { s with
      msc := { s.msc with awaitingDrain := false, wbufFill := 0 } }) ∧
    (ok → s.msc.missed = 1 → s.cfg.wf = true → s.memoryOk → s.dev.configurationValue ≠ 0 →
      s.clear s.cfg.mscOut .out →
      let n := s.msc.missedLen
      let full := n = s.msc.wbufCap ∨ s.msc.transferred + n = s.msc.intentLen
      n ≤ s.msc.intentLen - s.msc.transferred → n ≤ s.msc.wbufCap →
      s.msc.missedPtr + n ≤ s.cfg.memSize → s.msc.wbufPtr + n ≤ s.cfg.memSize →
      ∃ t, exec .evWriteDataHandled s = .next t ∧
        t.msc = { s.msc with awaitingDrain := decide full, missed := 0, wbufFill := n
                             transferred := s.msc.transferred + n } ∧
        t.outputs = s.outputs ++ (if full then [.drvWriteBuffer s.msc.wcb true n] else []) ∧
        Copied s t s.msc.wbufPtr s.msc.missedPtr n ∧ SameMemoryOutside s t s.msc.wbufPtr n ∧
        Offers s t s.cfg.mscOut .out (s.nextBuf s.cfg.mscOut .out) (s.cfg.mps s.cfg.mscOut .out) ∧
        SameDirsBut s t s.cfg.mscOut .out ∧
        t = { s with eps := t.eps, mem := t.mem, msc := t.msc, outputs := t.outputs }) ∧
    (ok → s.msc.missed = 1 → s.cfg.wf = true → s.dev.configurationValue ≠ 0 →
      (s.epDir s.cfg.mscOut .out).halted = false →
      s.msc.intentLen - s.msc.transferred < s.msc.missedLen ∨ s.msc.wbufCap < s.msc.missedLen →
      ∃ t, exec .evWriteDataHandled s = .next t ∧
        t.msc = { s.msc with awaitingDrain := false, wbufFill := 0, missed := 0, op := .none, status := 2
                             residue := s.msc.requested - s.msc.transferred, state := .stall } ∧
        t.outputs = s.outputs ++ [.drvWriteBuffer s.msc.wcb false 0] ∧
        (t.tcq = s.tcq.filter fun c => !(c.e == s.cfg.mscOut && c.d == .out)) ∧
        Halts s t s.cfg.mscOut .out ∧ SameDirsBut s t s.cfg.mscOut .out ∧ SameMemory s t ∧
        t = { s with eps := t.eps, tcq := t.tcq, msc := t.msc, outputs := t.outputs })

/-- R206, R191, R208: `EV_WRITE_COMPLETE`: its refusal; the end of the data phase before all the host's bytes have
arrived, which stalls bulk OUT; and the CSW once all have, `FAILED` with residue 0 and no stall where the driver
reports a failure, with bulk OUT offered again where it can be. -/
def Obligations.WriteCompleteEndsDataPhase : Prop :=
  ∀ (s : State) (ok : Bool),
    let m := s.msc
    let ei := s.cfg.mscIn
    let eo := s.cfg.mscOut
    let accepted := m.state = .dataOut ∧ m.op = .write ∧
      (ok = true → m.transferred = m.intentLen ∧ m.awaitingDrain = false)
    let status : Byte := if ok then m.status else 1
    let sense := if ok then s.sense else s.cfg.sense .writeError
    (¬accepted → exec (.evWriteComplete ok) s = .refused .notificationRequire) ∧
    (accepted → m.transferred < m.requested → s.cfg.wf = true → s.dev.configurationValue ≠ 0 →
      (s.epDir eo .out).halted = false →
      ∃ t, exec (.evWriteComplete ok) s = .next t ∧
        t.msc = { m with op := .none, awaitingDrain := false, missed := 0, status := status
                         residue := m.requested - m.transferred, state := .stall } ∧
        (t.tcq = s.tcq.filter fun c => !(c.e == eo && c.d == .out)) ∧
        Halts s t eo .out ∧ SameDirsBut s t eo .out ∧ SameMemory s t ∧
        t = { s with eps := t.eps, tcq := t.tcq, msc := t.msc, sense := sense }) ∧
    (accepted → m.requested ≤ m.transferred → m.cswArmed = false → m.inArmed = false → s.cfg.wf = true →
      s.memoryOk → s.dev.configurationValue ≠ 0 → s.clear ei .inp → s.nextBuf ei .inp + 13 ≤ s.cfg.memSize →
      ∃ t, exec (.evWriteComplete ok) s = .next t ∧ SendsCsw s t 0 status ∧
        t.msc = { m with op := .none, awaitingDrain := false, missed := 0, status := status, residue := 0
                         csw := t.msc.csw, state := .csw, cswArmed := true } ∧
        (s.clear eo .out → Offers s t eo .out (s.nextBuf eo .out) (s.cfg.mps eo .out) ∧
          ∀ e d, s.isMsc e d = false → t.epDir e d = s.epDir e d) ∧
        (¬s.clear eo .out → SameDirsBut s t ei .inp) ∧
        t = { s with eps := t.eps, mem := t.mem, msc := t.msc, sense := sense })

/-- R207, R208: `MSC_RESET`: both bulk directions are flushed, so that what was armed is withdrawn, an armed packet or
CSW among it, unless the direction is halted, which it stays; and bulk OUT is offered again where it is not. -/
def Obligations.MscResetKeepsHalts : Prop :=
  ∀ s : State,
    (s.dev.configurationValue = 0 → exec .mscReset s = .next (s.answer (.code .errNotConfigured))) ∧
    (s.cfg.wf = true → s.dev.configurationValue ≠ 0 → ∃ t, exec .mscReset s = .next t ∧
      t.msc = { s.msc.clearTransient with state := .idle } ∧
      (∀ e d, (t.epDir e d).halted = (s.epDir e d).halted) ∧
      (∀ e d, s.isMsc e d = false → t.epDir e d = s.epDir e d) ∧
      (t.tcq = s.tcq.filter fun c => !s.isMsc c.e c.d) ∧
      ((s.epDir s.cfg.mscOut .out).halted = false →
        (t.epDir s.cfg.mscOut .out).bd (s.hw s.cfg.mscOut .out) =
          ⟨s.cfg.epbuf s.cfg.mscOut .out (s.hw s.cfg.mscOut .out), s.cfg.mps s.cfg.mscOut .out, .hw,
            (s.epDir s.cfg.mscOut .out).nextToggle, false⟩) ∧
      Flushed s t s.cfg.mscIn .inp ∧
      ((s.epDir s.cfg.mscOut .out).halted = true → Flushed s t s.cfg.mscOut .out) ∧
      ((s.epDir s.cfg.mscOut .out).halted = false →
        ∃ u : State, u.cfg = s.cfg ∧ Flushed s u s.cfg.mscOut .out ∧
          Offers u t s.cfg.mscOut .out (u.nextBuf s.cfg.mscOut .out) (s.cfg.mps s.cfg.mscOut .out)) ∧
      t.outputs = s.outputs ++ unwound s.msc ∧ SameMemory s t ∧
      t = { s with eps := t.eps, tcq := t.tcq, msc := t.msc, outputs := t.outputs
                   reply := some (.code .ok) })

/-! ### Outputs and queries (30_encoding.md R89, 44_scsi.md R234) -/

/-- An output row appends its event to the output trace and changes nothing else; a query row is recorded,
and the driver's answer stands for the logical unit asked about, and for no other. That an output row may be
given by itself, and how long an answer stands, are the model's choices (assumptions 34, 5). -/
def Obligations.OutputsAndQueriesAreRecorded : Prop :=
  ∀ s : State,
    (∀ p, exec (.setupRequest p) s = .next { s with outputs := s.outputs ++ [.setupRequest p] }) ∧
    (∀ k ok, exec (.completion k ok) s = .next { s with outputs := s.outputs ++ [.completion k ok] }) ∧
    (∀ a, exec (.setDeviceAddress a) s = .next { s with outputs := s.outputs ++ [.setDeviceAddress a] }) ∧
    (∀ ok, exec (.drvBlockSent ok) s = .next { s with outputs := s.outputs ++ [.drvBlockSent ok] }) ∧
    (∀ k ok n, exec (.drvWriteBuffer k ok n) s =
      .next { s with outputs := s.outputs ++ [.drvWriteBuffer k ok n] }) ∧
    ∀ l : Lun,
      let asked (i : Instr) (o : Output) (a : DrvAnswers) : Prop :=
        ∃ t, exec i s = .next t ∧ t.outputs = s.outputs ++ [o] ∧ t.drvOf l = a ∧
          (∀ j, j ≠ l → t.drvOf j = s.drvOf j) ∧ t = { s with outputs := t.outputs, drv := t.drv }
      (∀ bs n wp, asked (.drvGetInfo l bs n wp) (.drvGetInfo l)
        { s.drvOf l with blockSize := bs, count := n, writeProtect := wp }) ∧
      (∀ r, asked (.drvUnitReady l r) (.drvUnitReady l) { s.drvOf l with ready := r }) ∧
      (∀ st ej ok, asked (.drvStartStop l st ej ok) (.drvStartStop l st ej)
        { s.drvOf l with startStopOk := ok }) ∧
      (∀ a n ok, asked (.drvStartRead l a n ok) (.drvStartRead l a n)
        { s.drvOf l with startReadOk := ok }) ∧
      (∀ a n ok b c k, asked (.drvStartWrite l a n ok b c k) (.drvStartWrite l a n)
        { s.drvOf l with startWriteOk := ok, buffer := b, capacity := c, cb := k })

/-! ### The channel (40_arbiter.md section 3) -/

/-- R102: an enabled OUT transaction, and one that is not enabled, which changes nothing but what the host
sees; with a payload longer than the armed count, or the other data toggle, the host sees no handshake. That a
transaction that is not enabled answers a next state with a wire event is the model's choice (assumption 9). -/
def Obligations.HwOutStoresPayload : Prop :=
  ∀ (s : State) (e : EpNum) (toggle : Bool) (payload : List Byte), s.memoryOk →
    let k := s.hw e .out
    let x := s.epDir e .out
    let b := x.bd k
    let open_ := b.owner = .hw ∧ b.stall = false ∧ ¬(e = 0 ∧ s.ep0Hold = true)
    let enabled := open_ ∧ payload.length ≤ b.count ∧ toggle = b.toggle
    (¬enabled → ∃ w, exec (.hwOut e toggle payload) s = .next { s with wire := s.wire ++ [w] }) ∧
    (open_ → ¬enabled → exec (.hwOut e toggle payload) s = .next { s with wire := s.wire ++ [.noHandshake e] }) ∧
    (enabled → b.addr + payload.length ≤ s.cfg.memSize →
    ∃ t, exec (.hwOut e toggle payload) s = .next t ∧
      (t.epDir e .out).bd k = ⟨b.addr, payload.length, .fw, b.toggle, false⟩ ∧
      (t.epDir e .out).bd (!k) = x.bd (!k) ∧ (t.epDir e .out).unread k = true ∧
      (t.epDir e .out).unread (!k) = x.unread (!k) ∧
      (t.epDir e .out).hwIdx = (if s.cfg.pingpong e .out then !k else x.hwIdx) ∧
      (t.epDir e .out).rdIdx = x.rdIdx ∧ (t.epDir e .out).activeIdx = x.activeIdx ∧
      (∀ j, (t.epDir e .out).rearmed j = x.rearmed j) ∧
      (t.epDir e .out).halted = x.halted ∧ (t.epDir e .out).nextToggle = x.nextToggle ∧
      t.bytes b.addr payload.length = payload ∧ SameMemoryOutside s t b.addr payload.length ∧
      SameDirsBut s t e .out ∧
      t = { s with eps := t.eps, mem := t.mem, tcq := s.tcq ++ [⟨e, .out⟩], wire := s.wire ++ [.ack e .out] })

/-- R103: an enabled IN transaction: the host receives the bytes with the descriptor's toggle; one that is not
enabled changes nothing but what the host sees. That it answers a next state with a wire event is the model's
choice (assumption 9). -/
def Obligations.HwInSendsPacket : Prop :=
  ∀ (s : State) (e : EpNum),
    let k := s.hw e .inp
    let x := s.epDir e .inp
    let b := x.bd k
    let enabled := b.owner = .hw ∧ b.stall = false ∧ ¬(e = 0 ∧ s.ep0Hold = true)
    (¬enabled → ∃ w, exec (.hwIn e) s = .next { s with wire := s.wire ++ [w] }) ∧
    (enabled → b.addr + b.count ≤ s.cfg.memSize →
    ∃ t, exec (.hwIn e) s = .next t ∧
      t.wire = s.wire ++ [.data e b.toggle (s.bytes b.addr b.count)] ∧
      (t.epDir e .inp).bd k = { b with owner := .fw } ∧ (t.epDir e .inp).bd (!k) = x.bd (!k) ∧
      (t.epDir e .inp).unread k = true ∧ (t.epDir e .inp).unread (!k) = x.unread (!k) ∧
      (t.epDir e .inp).hwIdx = (if s.cfg.pingpong e .inp then !k else x.hwIdx) ∧
      (t.epDir e .inp).rdIdx = x.rdIdx ∧ (t.epDir e .inp).activeIdx = x.activeIdx ∧
      (∀ j, (t.epDir e .inp).rearmed j = x.rearmed j) ∧
      (t.epDir e .inp).halted = x.halted ∧ (t.epDir e .inp).nextToggle = x.nextToggle ∧
      SameDirsBut s t e .inp ∧ SameMemory s t ∧
      t = { s with eps := t.eps, tcq := s.tcq ++ [⟨e, .inp⟩], wire := t.wire })

/-- R104: an enabled SETUP transaction ends a halt of endpoint 0, withdraws what is armed on IN, stores the
packet, and holds the endpoint; the stall bit and the toggle are not examined. An IN descriptor keeps its address,
count and toggle, and its stall bit is 0 where the channel owned it or it was the stalled one of a halt. That `active_buffer_index` of a
halted, double-buffered OUT then names the other descriptor, which 10_state.md R47 requires and R104 does not say,
is DEDUCED (assumption 37). -/
def Obligations.HwSetupAlwaysLands : Prop :=
  ∀ (s : State) (payload : List Byte), s.memoryOk → s.ep0Hold = false →
    let k := s.hw 0 .out
    let b := (s.epDir 0 .out).bd k
    b.owner = .hw → payload.length ≤ b.count → b.addr + payload.length ≤ s.cfg.memSize →
    ∃ t, exec (.hwSetup payload) s = .next t ∧
      (∀ d, (t.epDir 0 d).halted = false ∧ (t.epDir 0 d).nextToggle = (s.epDir 0 d).nextToggle ∧
        (t.epDir 0 d).rdIdx = (s.epDir 0 d).rdIdx ∧
        ∀ j, (t.epDir 0 d).rearmed j = (s.epDir 0 d).rearmed j) ∧
      (∀ j, let x := (s.epDir 0 .inp).bd j
        let released := x.owner = .hw ∨ ((s.epDir 0 .inp).halted = true ∧ j = s.hw 0 .inp)
        (t.epDir 0 .inp).bd j = { x with owner := .fw, stall := if released then false else x.stall }) ∧
      (t.epDir 0 .inp).activeIdx = (s.epDir 0 .inp).hwIdx ∧
      (t.epDir 0 .out).bd k = ⟨b.addr, payload.length, .fw, b.toggle, false⟩ ∧
      (t.epDir 0 .out).bd (!k) = (s.epDir 0 .out).bd (!k) ∧
      (t.epDir 0 .out).unread k = true ∧ (t.epDir 0 .out).unread (!k) = (s.epDir 0 .out).unread (!k) ∧
      (∀ j, (t.epDir 0 .inp).unread j = (s.epDir 0 .inp).unread j) ∧
      (t.epDir 0 .inp).hwIdx = (s.epDir 0 .inp).hwIdx ∧
      (t.epDir 0 .out).activeIdx =
        (if (s.epDir 0 .out).halted = true ∧ s.cfg.pingpong 0 .out = true then !k
         else (s.epDir 0 .out).activeIdx) ∧
      (t.epDir 0 .out).hwIdx = (if s.cfg.pingpong 0 .out then !k else (s.epDir 0 .out).hwIdx) ∧
      t.bytes b.addr payload.length = payload ∧ SameMemoryOutside s t b.addr payload.length ∧
      SameAboveZero s t ∧
      t = { s with eps := t.eps, mem := t.mem, ep0Hold := true, tcq := s.tcq ++ [⟨0, .setup⟩]
                   wire := s.wire ++ [.ack 0 .setup] }

/-- R105, and R104 of the hold: a stalled direction answers STALL and an idle one NAK, and endpoint 0 answers
NAK to everything while it is held, also when a descriptor of it is stalled: R104 and R105 meet there, and NAK is
DEDUCED (assumption 22). Nothing changes but what the host sees, and that a transaction that is not enabled
answers a next state is the model's choice (assumption 9), as is the NAK of an endpoint number at or above `N_EP`
(35). -/
def Obligations.ChannelAnswersStallAndNak : Prop :=
  ∀ (s : State) (e : EpNum) (tog : Bool) (payload : List Byte),
    (¬(e = 0 ∧ s.ep0Hold = true) →
      (((s.epDir e .inp).bd (s.hw e .inp)).owner = .hw → ((s.epDir e .inp).bd (s.hw e .inp)).stall = true →
        exec (.hwIn e) s = .next { s with wire := s.wire ++ [.stall e .inp] }) ∧
      (((s.epDir e .out).bd (s.hw e .out)).owner = .hw → ((s.epDir e .out).bd (s.hw e .out)).stall = true →
        exec (.hwOut e tog payload) s = .next { s with wire := s.wire ++ [.stall e .out] }) ∧
      (((s.epDir e .inp).bd (s.hw e .inp)).owner = .fw →
        exec (.hwIn e) s = .next { s with wire := s.wire ++ [.nak e .inp] }) ∧
      (((s.epDir e .out).bd (s.hw e .out)).owner = .fw →
        exec (.hwOut e tog payload) s = .next { s with wire := s.wire ++ [.nak e .out] })) ∧
    (s.ep0Hold = true →
      exec (.hwIn 0) s = .next { s with wire := s.wire ++ [.nak 0 .inp] } ∧
      exec (.hwOut 0 tog payload) s = .next { s with wire := s.wire ++ [.nak 0 .out] } ∧
      exec (.hwSetup payload) s = .next { s with wire := s.wire ++ [.nak 0 .out] })

/-! ### Consuming a completion (40_arbiter.md R107) -/

/-- 60_exceptions.md R249 and 30_encoding.md R94: the critical section, and what it masks; a record that is
not the head of `TCQ` is refused by every row that consumes a completion. That an event that is not enabled
leaves the state alone, and that a bus reset is remembered, is the model's choice (assumptions 9, 10). -/
def Obligations.CriticalSectionMasksCompletions : Prop :=
  ∀ s : State,
    exec .critEnter s = .next { s with tcIrqEn := false, reply := some (.code .ok) } ∧
    exec .critExit s = .next { s with tcIrqEn := true, reply := some (.code .ok) } ∧
    (s.tcIrqEn = false → exec .busReset s = .next { s with busResetPending := true }) ∧
    ∀ (x y : Tc) (rest : List Tc) (i : Instr),
      i = .evTc x ∨ ((x.pid = .setup → x.e = 0) ∧ i = instrOfTc s.cfg x) →
      (s.tcIrqEn = false → exec i s = .next s) ∧
      (s.tcq = [] → exec i s = .next s) ∧
      (s.tcIrqEn = true → s.tcq = y :: rest → y ≠ x → exec i s = .refused .notHeadOfQueue)

/-- R107, R108, R114: a completion on an endpoint of another owner: the record is removed, its descriptor
is read, the toggle is inverted once, and `ExternalTc` is emitted. The `EV_TC` row and the `EXT_TC` row do
the same. -/
def Obligations.ExternalCompletionIsPassedOut : Prop :=
  ∀ (s : State) (e : EpNum) (p : Pid) (rest : List Tc), s.tcIrqEn = true → s.tcq = ⟨e, p⟩ :: rest →
    p ≠ .setup → e ≠ 0 → s.isMsc e p.dir = false →
    ∃ t, exec (.evTc ⟨e, p⟩) s = .next t ∧ exec (.extTc e p.dir) s = .next t ∧
      t.outputs = s.outputs ++ [.externalTc e p.dir p ((s.epDir e p.dir).bd (s.rd e p.dir)).count] ∧
      (let x := s.epDir e p.dir
       let y := t.epDir e p.dir
       let k := s.rd e p.dir
       y.nextToggle = (!x.nextToggle) ∧ y.unread k = false ∧ y.unread (!k) = x.unread (!k) ∧
       (∀ j, y.bd j = x.bd j) ∧ y.rdIdx = (if s.cfg.pingpong e p.dir then !k else x.rdIdx) ∧
       y.hwIdx = x.hwIdx ∧ y.activeIdx = x.activeIdx ∧ y.halted = x.halted) ∧
      SameDirsBut s t e p.dir ∧ SameMemory s t ∧
      t = { s with eps := t.eps, tcq := rest, outputs := t.outputs }

/-- 41_control_engine.md R121, R122, R135: `CTE_SETUP`: an unfinished session fails, both toggles of endpoint 0
become 1, and what is armed on endpoint 0 IN is withdrawn. A packet of 8 bytes is latched and the dispatcher is
asked; one of any other length is rejected in the same step: both directions of endpoint 0 are stalled. -/
def Obligations.SetupStartsSession : Prop :=
  ∀ (s : State) (rest : List Tc), s.tcIrqEn = true → s.tcq = ⟨0, .setup⟩ :: rest →
    let k := s.rd 0 .out
    let b := (s.epDir 0 .out).bd k
    let failed := if s.cteState ≠ .idle then s.cs.report false else []
    let dev := if s.cteState ≠ .idle then { s.dev with pendingValid := false } else s.dev
    (b.count = 8 → b.addr + 8 ≤ s.cfg.memSize →
      let p := SetupPacket.parse (s.bytes b.addr 8)
      ∃ t, exec .cteSetup s = .next t ∧ exec (.evTc ⟨0, .setup⟩) s = .next t ∧
        t.cs = ⟨true, (if p.bmRequestType.getLsbD 7 then .inp else .out), 0, 0, false, 0, false, false, 0⟩ ∧
        t.outputs = s.outputs ++ failed ++ [.setupRequest p] ∧ t.dev = dev ∧
        (∀ d, (t.epDir 0 d).nextToggle = true ∧ (t.epDir 0 d).halted = (s.epDir 0 d).halted) ∧
        t.epDir 0 .inp = { (s.epDir 0 .inp).cancel with nextToggle := true } ∧
        (∀ j, (t.epDir 0 .out).bd j = (s.epDir 0 .out).bd j) ∧
        (t.epDir 0 .out).unread k = false ∧ (t.epDir 0 .out).unread (!k) = (s.epDir 0 .out).unread (!k) ∧
        (t.epDir 0 .out).activeIdx = (s.epDir 0 .out).activeIdx ∧
        (t.epDir 0 .out).hwIdx = (s.epDir 0 .out).hwIdx ∧
        (t.epDir 0 .out).rdIdx = (if s.cfg.pingpong 0 .out then !k else (s.epDir 0 .out).rdIdx) ∧
        SameAboveZero s t ∧ SameMemory s t ∧
        t = { s with eps := t.eps, tcq := rest, cteState := .setupReceived, setup := p, cs := t.cs
                     dev := dev, outputs := t.outputs }) ∧
    (b.count ≠ 8 → s.cfg.wf = true → (∀ d, (s.epDir 0 d).halted = false) →
      ∃ t, exec .cteSetup s = .next t ∧ exec (.evTc ⟨0, .setup⟩) s = .next t ∧
        t.cs = ⟨false, .out, 0, 0, false, 0, false, false, 0⟩ ∧ t.outputs = s.outputs ++ failed ∧
        t.dev = dev ∧
        (∀ d, (t.epDir 0 d).nextToggle = true ∧ (t.epDir 0 d).halted = true ∧
          (t.epDir 0 d).bd (s.hw 0 d) =
            ⟨s.cfg.epbuf 0 d (s.hw 0 d), s.cfg.mps0, .hw, false, true⟩ ∧
          (t.epDir 0 d).bd (!s.hw 0 d) = ((s.epDir 0 d).bd (!s.hw 0 d)).giveBack ∧
          (∀ j, (t.epDir 0 d).unread j = false) ∧ (t.epDir 0 d).rdIdx = s.hw 0 d ∧
          (t.epDir 0 d).hwIdx = (s.epDir 0 d).hwIdx ∧ (t.epDir 0 d).activeIdx = (s.epDir 0 d).hwIdx) ∧
        (t.tcq = rest.filter fun c => !(c.e == 0)) ∧ SameAboveZero s t ∧ SameMemory s t ∧
        t = { s with eps := t.eps, tcq := t.tcq, cteState := .idle, ep0Hold := false, cs := t.cs
                     dev := dev, outputs := t.outputs })

/-- 41_control_engine.md R124, R125, R133, R137, R138: `CTE_IN`: the next chunk, the trailing zero-length packet,
the end of the data stage, the end of the session, and where none is expected, nothing more. -/
def Obligations.InCompletionAdvancesEngine : Prop :=
  ∀ (s : State) (rest : List Tc), s.tcIrqEn = true → s.tcq = ⟨0, .inp⟩ :: rest → s.oneUnread 0 .inp →
    (s.cteState = .dataIn → 0 < s.cs.remaining → s.memoryOk →
      let n := min s.cs.remaining s.cfg.mps0
      let p := s.nextBuf 0 .inp
      s.cs.cursor + n ≤ s.cfg.memSize → p + n ≤ s.cfg.memSize →
      ∃ t, exec .cteIn s = .next t ∧
        t.cs = { s.cs with
          cursor := s.cs.cursor + n, remaining := s.cs.remaining - n, lastLen := n
          needsZlp := s.cs.needsZlp ||
            decide (s.cs.remaining - n = 0 ∧ n = s.cfg.mps0 ∧ s.cs.returningShort = true) } ∧
        ReadOnceThenOffers s t 0 .inp p n ∧ Copied s t p s.cs.cursor n ∧ SameMemoryOutside s t p n ∧
        SameDirsBut s t 0 .inp ∧ t = { s with eps := t.eps, tcq := rest, mem := t.mem, cs := t.cs }) ∧
    (s.cteState = .dataIn → s.cs.remaining = 0 → s.cs.needsZlp = true →
      ∃ t, exec .cteIn s = .next t ∧ t.cs = { s.cs with needsZlp := false, lastLen := 0 } ∧
        ReadOnceThenOffers s t 0 .inp (s.nextBuf 0 .inp) 0 ∧ SameDirsBut s t 0 .inp ∧ SameMemory s t ∧
        t = { s with eps := t.eps, tcq := rest, cs := t.cs }) ∧
    (s.cteState = .dataIn → s.cs.remaining = 0 → s.cs.needsZlp = false →
      ∃ t, exec .cteIn s = .next t ∧ ReadOnce s t 0 .inp ∧ SameDirsBut s t 0 .inp ∧ SameMemory s t ∧
        t = { s with eps := t.eps, tcq := rest, cteState := .status }) ∧
    (s.cteState = .status → s.cs.direction = .out →
      ∃ t, exec .cteIn s = .next t ∧
        t.outputs = s.outputs ++ s.cs.report true ++
          (if s.dev.pendingValid = true then [.setDeviceAddress s.dev.pendingAddress] else []) ∧
        t.dev = (if s.dev.pendingValid = true then
          { s.dev with address := s.dev.pendingAddress, pendingValid := false } else s.dev) ∧
        t.cs = s.cs.ended ∧ ReadOnce s t 0 .inp ∧ SameDirsBut s t 0 .inp ∧ SameMemory s t ∧
        t = { s with eps := t.eps, tcq := rest, cteState := .idle, cs := t.cs, dev := t.dev
                     outputs := t.outputs }) ∧
    (s.cteState = .idle ∨ s.cteState = .setupReceived ∨ s.cteState = .dataOut ∨
        (s.cteState = .status ∧ s.cs.direction = .inp) →
      ∃ t, exec .cteIn s = .next t ∧ ReadOnce s t 0 .inp ∧ SameDirsBut s t 0 .inp ∧ SameMemory s t ∧
        t = { s with eps := t.eps, tcq := rest })

/-- 41_control_engine.md R128, R130, R131, R136, R137: `CTE_OUT`: a data packet that fits is stored and endpoint 0
OUT is offered again; one that does not, or that comes where none is expected, stalls endpoint 0, fails the
session, and stores nothing; the empty packet of a status stage ends the session, an early one fails it; and
what is discarded is consumed with OUT offered again. What happens in `SETUP_RECEIVED`, where OUT stays unarmed,
is the model's choice (assumption 33). -/
def Obligations.OutCompletionAdvancesEngine : Prop :=
  ∀ (s : State) (rest : List Tc), s.cfg.wf = true → s.tcIrqEn = true → s.tcq = ⟨0, .out⟩ :: rest →
    s.oneUnread 0 .out →
    let b := (s.epDir 0 .out).bd (s.rd 0 .out)
    let n := b.count
    (s.cteState = .dataOut → s.memoryOk → n = s.cfg.mps0 → n < s.cs.remaining →
      b.addr + n ≤ s.cfg.memSize → s.cs.cursor + n ≤ s.cfg.memSize →
      ∃ t, exec .cteOut s = .next t ∧
        t.cs = { s.cs with cursor := s.cs.cursor + n, remaining := s.cs.remaining - n } ∧
        ReadOnceThenOffers s t 0 .out (s.nextBuf 0 .out) s.cfg.mps0 ∧ Copied s t s.cs.cursor b.addr n ∧
        SameMemoryOutside s t s.cs.cursor n ∧ SameDirsBut s t 0 .out ∧
        t = { s with eps := t.eps, tcq := rest, mem := t.mem, cs := t.cs }) ∧
    (s.cteState = .dataOut → s.memoryOk → n ≤ s.cs.remaining → n < s.cfg.mps0 ∨ n = s.cs.remaining →
      b.addr + n ≤ s.cfg.memSize → s.cs.cursor + n ≤ s.cfg.memSize → s.clear 0 .inp →
      ∃ t, exec .cteOut s = .next t ∧
        t.cs = { s.cs with cursor := s.cs.cursor + n, remaining := s.cs.remaining - n } ∧
        ReadOnceThenOffers s t 0 .out (s.nextBuf 0 .out) s.cfg.mps0 ∧
        Offers s t 0 .inp (s.nextBuf 0 .inp) 0 ∧ Copied s t s.cs.cursor b.addr n ∧
        SameMemoryOutside s t s.cs.cursor n ∧ SameAboveZero s t ∧
        t = { s with eps := t.eps, tcq := rest, mem := t.mem, cs := t.cs, cteState := .status }) ∧
    ((s.cteState = .dataOut ∧ s.cs.remaining < n) ∨
        ((s.cteState = .dataIn ∨ s.cteState = .status) ∧ 0 < n) → (s.epDir 0 .inp).halted = false →
      ∃ u t, exec .cteOut s = .next t ∧ Halts s t 0 .inp ∧ ReadOnce s u 0 .out ∧ u.cfg = s.cfg ∧
        Halts u t 0 .out ∧ (t.tcq = rest.filter fun c => !(c.e == 0)) ∧
        t.outputs = s.outputs ++ s.cs.report false ∧ t.cs = s.cs.ended ∧
        t.dev = { s.dev with pendingValid := false } ∧ SameAboveZero s t ∧ SameMemory s t ∧
        t = { s with eps := t.eps, tcq := t.tcq, cteState := .idle, cs := t.cs, dev := t.dev
                     outputs := t.outputs }) ∧
    (s.cteState = .status → s.cs.direction = .inp → n = 0 →
      ∃ t, exec .cteOut s = .next t ∧ ReadOnceThenOffers s t 0 .out (s.nextBuf 0 .out) s.cfg.mps0 ∧
        t.outputs = s.outputs ++ s.cs.report true ++
          (if s.dev.pendingValid = true then [.setDeviceAddress s.dev.pendingAddress] else []) ∧
        t.dev = (if s.dev.pendingValid = true then
          { s.dev with address := s.dev.pendingAddress, pendingValid := false } else s.dev) ∧
        t.cs = s.cs.ended ∧ SameDirsBut s t 0 .out ∧ SameMemory s t ∧
        t = { s with eps := t.eps, tcq := rest, cteState := .idle, cs := t.cs, dev := t.dev
                     outputs := t.outputs }) ∧
    (s.cteState = .dataIn → n = 0 →
      ∃ t, exec .cteOut s = .next t ∧ ReadOnceThenOffers s t 0 .out (s.nextBuf 0 .out) s.cfg.mps0 ∧
        t.epDir 0 .inp = (s.epDir 0 .inp).cancel ∧ t.outputs = s.outputs ++ s.cs.report false ∧
        t.cs = s.cs.ended ∧ t.dev = { s.dev with pendingValid := false } ∧ SameAboveZero s t ∧
        SameMemory s t ∧
        t = { s with eps := t.eps, tcq := rest, cteState := .idle, cs := t.cs, dev := t.dev
                     outputs := t.outputs }) ∧
    (s.cteState = .idle ∨ (s.cteState = .status ∧ s.cs.direction = .out ∧ n = 0) →
      ∃ t, exec .cteOut s = .next t ∧ ReadOnceThenOffers s t 0 .out (s.nextBuf 0 .out) s.cfg.mps0 ∧
        SameDirsBut s t 0 .out ∧ SameMemory s t ∧ t = { s with eps := t.eps, tcq := rest }) ∧
    (s.cteState = .setupReceived →
      ∃ t, exec .cteOut s = .next t ∧ ReadOnce s t 0 .out ∧ SameDirsBut s t 0 .out ∧ SameMemory s t ∧
        t = { s with eps := t.eps, tcq := rest })

/-- 43_msc_bot.md R192, R196, R197, R200: `MSC_IN`: the CSW taken ends the command; the last packet of a driver's
block is reported and the transport waits; while bytes remain the next packet is sent, from the driver's block or
from the response; and with nothing left to send and no operation open the data phase ends: fewer bytes than the
host asked for stall bulk IN, and as many send the CSW. -/
def Obligations.BulkInCompletionAdvancesTransport : Prop :=
  ∀ (s : State) (rest : List Tc), s.cfg.wf = true → s.tcIrqEn = true → s.tcq = ⟨s.cfg.mscIn, .inp⟩ :: rest →
    let e := s.cfg.mscIn
    (s.msc.state = .csw → s.msc.cswArmed = true →
      ∃ t, exec .mscIn s = .next t ∧ t.msc = { s.msc.clearTransient with state := .idle } ∧
        ReadOnce s t e .inp ∧ SameDirsBut s t e .inp ∧ SameMemory s t ∧
        t = { s with eps := t.eps, tcq := rest, msc := t.msc }) ∧
    (s.msc.state = .dataIn → s.msc.inArmed = true → s.msc.txRem = 0 → s.msc.txSrc = .driver →
      s.msc.op = .read →
      ∃ t, exec .mscIn s = .next t ∧
        t.msc = { s.msc with inArmed := false, transferred := s.msc.transferred + s.msc.txLast } ∧
        t.outputs = s.outputs ++ [.drvBlockSent true] ∧ ReadOnce s t e .inp ∧ SameDirsBut s t e .inp ∧
        SameMemory s t ∧ t = { s with eps := t.eps, tcq := rest, msc := t.msc, outputs := t.outputs }) ∧
    (s.msc.state = .dataIn → s.msc.inArmed = true → 0 < s.msc.txRem → s.msc.txSrc = .driver →
      s.memoryOk → s.dev.configurationValue ≠ 0 → s.oneUnread e .inp →
      let n := min s.msc.txRem (s.cfg.mps e .inp)
      let p := s.nextBuf e .inp
      s.msc.txPtr + n ≤ s.cfg.memSize → p + n ≤ s.cfg.memSize →
      ∃ t, exec .mscIn s = .next t ∧
        t.msc = { s.msc with
          transferred := s.msc.transferred + s.msc.txLast, txPtr := s.msc.txPtr + n
          txRem := s.msc.txRem - n, txLast := n } ∧
        ReadOnceThenOffers s t e .inp p n ∧ Copied s t p s.msc.txPtr n ∧ SameMemoryOutside s t p n ∧
        SameDirsBut s t e .inp ∧ t = { s with eps := t.eps, tcq := rest, mem := t.mem, msc := t.msc }) ∧
    (s.msc.state = .dataIn → s.msc.inArmed = true → 0 < s.msc.txRem → s.msc.txSrc = .internal →
      s.memoryOk → s.dev.configurationValue ≠ 0 → s.oneUnread e .inp →
      let n := min s.msc.txRem (s.cfg.mps e .inp)
      let p := s.nextBuf e .inp
      s.msc.txPtr + n ≤ s.msc.resp.length → p + n ≤ s.cfg.memSize →
      ∃ t, exec .mscIn s = .next t ∧
        t.msc = { s.msc with
          transferred := s.msc.transferred + s.msc.txLast, txPtr := s.msc.txPtr + n
          txRem := s.msc.txRem - n, txLast := n } ∧
        ReadOnceThenOffers s t e .inp p n ∧ t.bytes p n = (s.msc.resp.drop s.msc.txPtr).take n ∧
        SameMemoryOutside s t p n ∧ SameDirsBut s t e .inp ∧
        t = { s with eps := t.eps, tcq := rest, mem := t.mem, msc := t.msc }) ∧
    (s.msc.state = .dataIn → s.msc.inArmed = true → s.msc.txRem = 0 →
      s.msc.txSrc = .internal ∨ s.msc.op = .none → s.dev.configurationValue ≠ 0 → s.oneUnread e .inp →
      let sent := s.msc.transferred + s.msc.txLast
      (sent < s.msc.requested →
        ∃ u t, exec .mscIn s = .next t ∧ ReadOnce s u e .inp ∧ u.cfg = s.cfg ∧ Halts u t e .inp ∧
          t.msc = { s.msc with inArmed := false, transferred := sent, residue := s.msc.requested - sent
                               state := .stall } ∧
          (t.tcq = rest.filter fun c => !(c.e == e && c.d == .inp)) ∧ SameDirsBut s t e .inp ∧
          SameMemory s t ∧ t = { s with eps := t.eps, tcq := t.tcq, msc := t.msc }) ∧
      (s.msc.requested ≤ sent → s.msc.cswArmed = false → s.memoryOk →
        let p := s.nextBuf e .inp
        let b := cswBytes s.msc.currentTag 0 s.msc.status
        p + 13 ≤ s.cfg.memSize →
        ∃ t, exec .mscIn s = .next t ∧ ReadOnceThenOffers s t e .inp p 13 ∧ t.bytes p 13 = b ∧
          SameMemoryOutside s t p 13 ∧ SameDirsBut s t e .inp ∧
          t.msc = { s.msc with inArmed := false, transferred := sent, residue := 0, csw := b, state := .csw
                               cswArmed := true } ∧
          t = { s with eps := t.eps, tcq := rest, mem := t.mem, msc := t.msc }))

/-- 43_msc_bot.md R202 to R204: `MSC_OUT` in `DATA_OUT`: a packet that fits is stored in the driver's buffer,
which is handed over when it is full or the data phase is whole; one that comes before the buffer is drained
is held; one that does not fit stalls bulk OUT and is not stored. That an empty packet at the end of the data phase
hands the buffer over again is DEDUCED (assumption 39). -/
def Obligations.BulkOutDataIsAccumulated : Prop :=
  ∀ (s : State) (rest : List Tc), s.cfg.wf = true → s.tcIrqEn = true →
    s.tcq = ⟨s.cfg.mscOut, .out⟩ :: rest → s.msc.state = .dataOut → s.dev.configurationValue ≠ 0 →
    s.oneUnread s.cfg.mscOut .out →
    let e := s.cfg.mscOut
    let b := (s.epDir e .out).bd (s.rd e .out)
    let n := b.count
    let fits := n ≤ s.msc.intentLen - s.msc.transferred ∧ n ≤ s.msc.wbufCap - s.msc.wbufFill
    let full := s.msc.wbufFill + n = s.msc.wbufCap ∨ s.msc.transferred + n = s.msc.intentLen
    (s.msc.awaitingDrain = true → s.msc.missed = 0 →
      ∃ t, exec .mscOut s = .next t ∧
        t.msc = { s.msc with missed := 1, missedPtr := b.addr, missedLen := n } ∧ ReadOnce s t e .out ∧
        SameDirsBut s t e .out ∧ SameMemory s t ∧
        t = { s with eps := t.eps, tcq := rest, msc := t.msc }) ∧
    (s.msc.awaitingDrain = false → fits → s.memoryOk → b.addr + n ≤ s.cfg.memSize →
      s.msc.wbufPtr + s.msc.wbufFill + n ≤ s.cfg.memSize →
      ∃ t, exec .mscOut s = .next t ∧
        t.msc = { s.msc with wbufFill := s.msc.wbufFill + n, transferred := s.msc.transferred + n
                             awaitingDrain := decide full } ∧
        t.outputs = s.outputs ++
          (if full then [.drvWriteBuffer s.msc.wcb true (s.msc.wbufFill + n)] else []) ∧
        ReadOnceThenOffers s t e .out (s.nextBuf e .out) (s.cfg.mps e .out) ∧
        Copied s t (s.msc.wbufPtr + s.msc.wbufFill) b.addr n ∧
        SameMemoryOutside s t (s.msc.wbufPtr + s.msc.wbufFill) n ∧ SameDirsBut s t e .out ∧
        t = { s with eps := t.eps, tcq := rest, mem := t.mem, msc := t.msc, outputs := t.outputs }) ∧
    (s.msc.awaitingDrain = false → ¬fits →
      ∃ u t, exec .mscOut s = .next t ∧
        t.msc = { s.msc with op := .none, status := 2, residue := s.msc.requested - s.msc.transferred
                             state := .stall } ∧
        t.outputs = s.outputs ++ unwound s.msc ∧ ReadOnce s u e .out ∧ u.cfg = s.cfg ∧ Halts u t e .out ∧
        (t.tcq = rest.filter fun c => !(c.e == e && c.d == .out)) ∧
        SameDirsBut s t e .out ∧ SameMemory s t ∧
        t = { s with eps := t.eps, tcq := t.tcq, msc := t.msc, outputs := t.outputs })

/-- 43_msc_bot.md R171 to R173, R211: any bulk OUT packet that is not a valid CBW, and any that comes where
none is expected, halts both bulk endpoints and leads to `NRR`; no CSW is built and the sense is kept. Each bulk
direction is left as `SET_HALT` leaves it, with its completions dropped, unless the host had halted it already. -/
def Obligations.BadCbwHaltsBothEndpoints : Prop :=
  ∀ (s : State) (rest : List Tc), s.cfg.wf = true → s.dev.configurationValue ≠ 0 → s.tcIrqEn = true →
    s.tcq = ⟨s.cfg.mscOut, .out⟩ :: rest →
    let ei := s.cfg.mscIn
    let eo := s.cfg.mscOut
    let b := (s.epDir eo .out).bd (s.rd eo .out)
    let w := Cbw.parse (s.bytes b.addr 31)
    (s.msc.state = .dataIn ∨ s.msc.state = .stall ∨ s.msc.state = .csw ∨
      (s.msc.state = .idle ∧ b.addr + 31 ≤ s.cfg.memSize ∧
        (b.count ≠ 31 ∨ w.signature ≠ 0x43425355 ∨ w.flags.toNat % 128 ≠ 0 ∨
          s.cfg.maxLun.val < w.lun.toNat % 16 ∨ w.cbLength.toNat % 32 = 0 ∨
          16 < w.cbLength.toNat % 32))) →
    ∃ t, exec .mscOut s = .next t ∧ t.msc = { s.msc.clearTransient with state := .nrr } ∧
      (t.epDir ei .inp).halted = true ∧ (t.epDir eo .out).halted = true ∧
      ((s.epDir ei .inp).halted = false → Halts s t ei .inp) ∧
      ((s.epDir ei .inp).halted = true → t.epDir ei .inp = s.epDir ei .inp) ∧
      ((s.epDir eo .out).halted = false →
        ∃ u : State, u.cfg = s.cfg ∧ ReadOnce s u eo .out ∧ Halts u t eo .out) ∧
      ((s.epDir eo .out).halted = true → ReadOnce s t eo .out) ∧
      (t.tcq = rest.filter fun c =>
        !((c.e == ei && c.d == .inp && !(s.epDir ei .inp).halted) ||
          (c.e == eo && c.d == .out && !(s.epDir eo .out).halted))) ∧
      (∀ e d, s.isMsc e d = false → t.epDir e d = s.epDir e d) ∧ SameMemory s t ∧
      t.outputs = s.outputs ++ unwound s.msc ∧
      t = { s with eps := t.eps, tcq := t.tcq, msc := t.msc, outputs := t.outputs }

/-- 43_msc_bot.md R176, R178 to R181, R184 to R188, R190, R191, R201: where host and device intents disagree so
that an endpoint is stalled, the status and residue are the table's, that bulk endpoint is halted, and the
transport waits in `STALL`; where the host asked for nothing (cases 1 to 3) no endpoint is stalled and the CSW is
sent at once, `PHASE_ERROR` unless the device too moves nothing, or waits where the host has halted bulk IN. -/
def Obligations.StallingCasesMatchTable : Prop :=
  ∀ (s : State) (cmd : ScsiCmd) (H D : Intent) (dlen : Nat), s.cfg.wf = true →
    s.dev.configurationValue ≠ 0 →
    let h := s.msc.requested
    (H ≠ .none →
      let failing := D = .none ∨ (H = .out ∧ D = .out ∧ dlen < h)
      (failing ∨ H ≠ D ∨ h < dlen) →
      let d := if H = .inp then Dir.inp else Dir.out
      let e := if H = .inp then s.cfg.mscIn else s.cfg.mscOut
      (s.epDir e d).halted = false →
      ∃ t, runCase (selectCase H D h dlen) cmd dlen s = .next t ∧
        t.msc = { s.msc with status := if failing then 1 else 2, residue := h, state := .stall } ∧
        (t.tcq = s.tcq.filter fun c => !(c.e == e && c.d == d)) ∧
        Halts s t e d ∧ SameDirsBut s t e d ∧ SameMemory s t ∧
        t = { s with eps := t.eps, tcq := t.tcq, msc := t.msc }) ∧
    (H = .none → s.msc.cswArmed = false → s.msc.inArmed = false →
      let status := if D = .none then s.msc.status else 2
      let m : Msc := { s.msc with
        status := status, residue := 0, csw := cswBytes s.msc.currentTag 0 status, state := .csw }
      ((s.epDir s.cfg.mscIn .inp).halted = true →
        runCase (selectCase H D h dlen) cmd dlen s = .next { s with msc := m }) ∧
      (s.clear s.cfg.mscIn .inp → s.memoryOk → s.nextBuf s.cfg.mscIn .inp + 13 ≤ s.cfg.memSize →
        ∃ t, runCase (selectCase H D h dlen) cmd dlen s = .next t ∧ SendsCsw s t 0 status ∧
          SameDirsBut s t s.cfg.mscIn .inp ∧
          t = { s with eps := t.eps, mem := t.mem, msc := { m with cswArmed := true } }))

/-- 43_msc_bot.md R174, R175, R178, R191 and 44_scsi.md R229, R230, as the pseudo-operation `CBW` of
30_encoding.md R95: a valid CBW that asks for no data with an operation code the block does not know is
latched, and a CSW `FAILED` with residue 0 and the CBW's own tag is sent. The packet on the wire and the
completion are the two steps `HW_OUT` and `MSC_OUT`. -/
def Obligations.UnknownCommandSendsFailedCsw : Prop :=
  ∀ (s : State) (w : Cbw), s.cfg.wf = true → s.memoryOk → s.dev.configurationValue ≠ 0 →
    s.tcIrqEn = true → s.tcq = [] → s.msc.state = .idle → s.msc.cswArmed = false → s.msc.inArmed = false →
    w.signature = 0x43425355 → w.flags.toNat % 128 = 0 → w.lun.toNat % 16 ≤ s.cfg.maxLun.val →
    1 ≤ w.cbLength.toNat % 32 → w.cbLength.toNat % 32 ≤ 16 → w.length = 0 →
    s.cfg.scsiKind (w.cb.get 0) = none →
    let e := s.cfg.mscOut
    let k := s.hw e .out
    let b := (s.epDir e .out).bd k
    b.owner = .hw → b.stall = false → 31 ≤ b.count → b.addr + 31 ≤ s.cfg.memSize → s.rd e .out = k →
    s.clear s.cfg.mscIn .inp → s.nextBuf s.cfg.mscIn .inp + 13 ≤ s.cfg.memSize →
    ∃ u t, exec (.hwOut e b.toggle w.bytes) s = .next u ∧ exec .mscOut u = .next t ∧
      exec (.cbw w.bytes) s = .next t ∧ t.msc.cbw = w ∧ t.msc.currentTag = w.tag ∧ t.msc.requested = 0 ∧
      t.msc.residue = 0 ∧ t.msc.status = 1 ∧ t.msc.caseNo = 1 ∧ t.msc.state = .csw ∧
      t.msc.cswArmed = true ∧ t.msc.csw = cswBytes w.tag 0 1 ∧
      Offers s t s.cfg.mscIn .inp (s.nextBuf s.cfg.mscIn .inp) 13 ∧
      t.bytes (s.nextBuf s.cfg.mscIn .inp) 13 = t.msc.csw ∧ t.sense = s.cfg.sense .invalidCommand ∧ t.outputs = s.outputs ∧
      (∀ e' d, s.isMsc e' d = false → t.epDir e' d = s.epDir e' d)

/-- 43_msc_bot.md R174, R176, R177, R182, R183, R189, R196 and 44_scsi.md R221, R227, R228: the beginning of a data
phase. A valid CBW with `INQUIRY` whose host asks for 36 bytes or more is latched, and the first packet of the
response is stored and offered on bulk IN. In cases 5 and 6 with bulk IN already halted nothing is started. For
`READ_10` in cases 5 and 6 and `WRITE_10` in case 12 the driver is asked to start, and a refused start makes the
command fail as case 4 or 9. -/
def Obligations.InquiryBeginsDataPhase : Prop :=
  (∀ (s : State) (rest : List Tc), s.cfg.wf = true → s.memoryOk → s.dev.configurationValue ≠ 0 →
    s.tcIrqEn = true → s.tcq = ⟨s.cfg.mscOut, .out⟩ :: rest → s.msc.state = .idle →
    let b := (s.epDir s.cfg.mscOut .out).bd (s.rd s.cfg.mscOut .out)
    let w := Cbw.parse (s.bytes b.addr 31)
    b.count = 31 → b.addr + 31 ≤ s.cfg.memSize → w.signature = 0x43425355 → w.flags = 0x80 →
    w.lun.toNat % 16 ≤ s.cfg.maxLun.val → 1 ≤ w.cbLength.toNat % 32 → w.cbLength.toNat % 32 ≤ 16 →
    36 ≤ w.length.toNat → s.cfg.scsiKind (w.cb.get 0) = some .inquiry → s.clear s.cfg.mscIn .inp →
    let n := min 36 (s.cfg.mps s.cfg.mscIn .inp)
    let p := s.nextBuf s.cfg.mscIn .inp
    p + n ≤ s.cfg.memSize →
    ∃ t, exec .mscOut s = .next t ∧ t.msc.state = .dataIn ∧ t.msc.cbw = w ∧ t.msc.currentTag = w.tag ∧
      t.msc.requested = w.length.toNat ∧ t.msc.hostDir = .inp ∧ t.msc.status = 0 ∧
      t.msc.lun.val = w.lun.toNat % 16 ∧ t.msc.caseNo = (if w.length.toNat = 36 then 6 else 5) ∧
      t.msc.intent = .inp ∧ t.msc.intentLen = 36 ∧ t.msc.transferred = 0 ∧ t.msc.txSrc = .internal ∧
      t.msc.txPtr = n ∧ t.msc.txRem = 36 - n ∧ t.msc.txLast = n ∧ t.msc.inArmed = true ∧
      t.bytes p n = (s.cfg.inquiry t.msc.lun).take n ∧ SameMemoryOutside s t p n ∧
      Offers s t s.cfg.mscIn .inp p n ∧ t.sense = s.sense ∧ t.outputs = s.outputs ∧
      (∀ e d, s.isMsc e d = false → t.epDir e d = s.epDir e d)) ∧
  ∀ (s : State) (lba : BitVec 32) (blocks : BitVec 16) (dlen : Nat), s.cfg.wf = true →
    s.dev.configurationValue ≠ 0 →
    let m := s.msc
    let a := s.drvOf m.lun
    let asked (o : Output) := s.outputs ++ [o]
    let notStarted (t : State) (o : Output) (r : SenseReason) (c : Nat) (e : EpNum) (d : Dir) : Prop :=
      t.msc = { m with intentLen := dlen, intent := .none, caseNo := c, status := 1, residue := m.requested
                       state := .stall } ∧
      (t.tcq = s.tcq.filter fun x => !(x.e == e && x.d == d)) ∧ Halts s t e d ∧ SameDirsBut s t e d ∧
      SameMemory s t ∧
      t = { s with eps := t.eps, tcq := t.tcq, msc := t.msc, sense := s.cfg.sense r, outputs := asked o }
    (∀ c, c = BotCase.c5 ∨ c = .c6 →
      ((s.epDir s.cfg.mscIn .inp).halted = true → ∀ cmd, runCase c cmd dlen s = .next { s with
        msc := { m with intentLen := dlen, status := 1, residue := m.requested, state := .stall } }) ∧
      ((s.epDir s.cfg.mscIn .inp).halted = false → a.startReadOk = true →
        runCase c (.read10 lba blocks) dlen s = .next { s with
          outputs := asked (.drvStartRead m.lun lba blocks)
          msc := { m with intentLen := dlen, op := .read, state := .dataIn, txRem := 0 } }) ∧
      ((s.epDir s.cfg.mscIn .inp).halted = false → a.startReadOk = false →
        ∃ t, runCase c (.read10 lba blocks) dlen s = .next t ∧
          notStarted t (.drvStartRead m.lun lba blocks) .readError 4 s.cfg.mscIn .inp)) ∧
    (a.startWriteOk = true → a.capacity ≠ 0 →
      runCase .c12 (.write10 lba blocks) dlen s = .next { s with
        outputs := asked (.drvStartWrite m.lun lba blocks)
        msc := { m with
          intentLen := dlen, wbufPtr := a.buffer, wbufCap := a.capacity, wcb := a.cb, wbufFill := 0
          awaitingDrain := false, missed := 0, op := .write, state := .dataOut } }) ∧
    (a.startWriteOk = false ∨ a.capacity = 0 → (s.epDir s.cfg.mscOut .out).halted = false →
      ∃ t, runCase .c12 (.write10 lba blocks) dlen s = .next t ∧
        notStarted t (.drvStartWrite m.lun lba blocks) .writeError 9 s.cfg.mscOut .out)

/-- 43_msc_bot.md R191, R194 and 30_encoding.md R85: a CSW that is due is built from the transport's
registers, stored and offered: by `MSC_HALT_CLEARED` of bulk IN in `STALL` or `CSW`; by that of bulk OUT, which
also offers bulk OUT again where it can; and by the `CSW` row in `CSW`, which waits where bulk IN is halted. In
`IDLE`, with a CSW already armed, and while bulk IN is halted, `MSC_HALT_CLEARED` of bulk IN does nothing and that of
bulk OUT only offers it again; the `require` of R191 refuses a CSW over one that is armed, or over a packet in flight.
That the two rows may be given by themselves, with `ERR_NOT_CONFIGURED` on an unconfigured device, `ERR_STATE` for
`MSC_HALT_CLEARED` in `DATA_IN`, `DATA_OUT` and `NRR` and for the `CSW` row outside `CSW`, and `ERR_ARG` for a `CSW` row
with other contents, is the model's choice (assumptions 13, 14). -/
def Obligations.StatusWrapperIsSentWhenDue : Prop :=
  (∀ s : State, s.dev.configurationValue = 0 →
    (∀ d, exec (.mscHaltCleared d) s = .next (s.answer (.code .errNotConfigured))) ∧
    ∀ tag r st, exec (.csw tag r st) s = .next (s.answer (.code .errNotConfigured))) ∧
  ∀ s : State, s.cfg.wf = true → s.memoryOk → s.dev.configurationValue ≠ 0 →
    let ei := s.cfg.mscIn
    let eo := s.cfg.mscOut
    let residue := BitVec.ofNat 32 s.msc.residue
    let row : Instr := .csw s.msc.currentTag residue s.msc.status
    let due := s.msc.cswArmed = false ∧ s.msc.inArmed = false ∧ s.clear ei .inp ∧
      s.nextBuf ei .inp + 13 ≤ s.cfg.memSize
    let sent (t : State) : Prop := SendsCsw s t residue s.msc.status ∧
      t.msc = { s.msc with csw := t.msc.csw, state := .csw, cswArmed := true } ∧
      t = { s with eps := t.eps, mem := t.mem, msc := t.msc, reply := some (.code .ok) }
    (due → s.msc.state = .stall ∨ s.msc.state = .csw →
      (∃ t, exec (.mscHaltCleared .inp) s = .next t ∧ sent t ∧ SameDirsBut s t ei .inp) ∧
      (s.clear eo .out → ∃ t, exec (.mscHaltCleared .out) s = .next t ∧ sent t ∧
        Offers s t eo .out (s.nextBuf eo .out) (s.cfg.mps eo .out) ∧
        ∀ e d, s.isMsc e d = false → t.epDir e d = s.epDir e d) ∧
      (¬s.clear eo .out → ∃ t, exec (.mscHaltCleared .out) s = .next t ∧ sent t ∧
        SameDirsBut s t ei .inp)) ∧
    (due → s.msc.state = .csw → ∃ t, exec row s = .next t ∧ sent t ∧ SameDirsBut s t ei .inp) ∧
    (s.msc.state = .csw → s.msc.cswArmed = false → s.msc.inArmed = false →
      (s.epDir ei .inp).halted = true → exec row s = .next { s with
        msc := { s.msc with csw := cswBytes s.msc.currentTag residue s.msc.status }
        reply := some (.code .ok) }) ∧
    (s.msc.state ≠ .csw → ∀ tag r st, exec (.csw tag r st) s = .next (s.answer (.code .errState))) ∧
    (s.msc.state = .csw → ∀ tag r st, tag ≠ s.msc.currentTag ∨ r ≠ residue ∨ st ≠ s.msc.status →
      exec (.csw tag r st) s = .next (s.answer (.code .errArg))) ∧
    (s.msc.state = .csw → s.msc.cswArmed = true ∨ s.msc.inArmed = true → exec row s = .refused .cswRequire) ∧
    (s.msc.state = .idle ∨ ((s.msc.state = .stall ∨ s.msc.state = .csw) ∧
        ((s.epDir ei .inp).halted = true ∨ s.msc.cswArmed = true)) →
      exec (.mscHaltCleared .inp) s = .next (s.answer (.code .ok)) ∧
      (s.clear eo .out → ∃ t, exec (.mscHaltCleared .out) s = .next t ∧
        Offers s t eo .out (s.nextBuf eo .out) (s.cfg.mps eo .out) ∧
        SameDirsBut s t eo .out ∧ SameMemory s t ∧
        t = { s with eps := t.eps, reply := some (.code .ok) }) ∧
      (¬s.clear eo .out → exec (.mscHaltCleared .out) s = .next (s.answer (.code .ok)))) ∧
    (s.msc.state = .stall ∨ s.msc.state = .csw → (s.epDir ei .inp).halted = false → s.msc.cswArmed = false →
      s.msc.inArmed = true → ∀ d, exec (.mscHaltCleared d) s = .refused .cswRequire) ∧
    (s.msc.state = .dataIn ∨ s.msc.state = .dataOut ∨ s.msc.state = .nrr →
      ∀ d, exec (.mscHaltCleared d) s = .next (s.answer (.code .errState)))

/-! ### Requests (42_request_dispatch.md) -/

/-- R157 to R159, with 41_control_engine.md R123: what an oracle answers is the disposition command that runs, for
`GET_MAX_LUN` and any other request as for a descriptor, and none is `REJECT`; where the answer is a control
return, the request starts its data stage, and one of no bytes (`wLength = 0`) has its status stage at once, with no
buffer on loan (assumption 36). That
a request row is the dispatcher's whole act, with its packet not compared with the register `setup`, and that
`SETUP` is also met at the dispatcher, is DEDUCED (assumptions 11, 12). -/
def Obligations.OracleRequestsComplete : Prop :=
  let maxLun (s : State) (v : BitVec 16) : SetupPacket :=
    ⟨s.cfg.req.getMaxLun.bmRequestType, s.cfg.req.getMaxLun.bRequest, v, s.cfg.mscIface.setWidth 16, 1⟩
  let answers (s : State) (i : Instr) (a n r : Nat) : Prop :=
    (∃ ty ix lang len, i = .getDescriptor ty ix lang len ∧ len.toNat = r ∧
        s.cfg.descriptor ty ix lang = some (a, n)) ∨
      (∃ v, i = .getMaxLun v ∧ s.cfg.dispatchOf (maxLun s v) = .controlReturn a n r) ∨
      (∃ p, i = .setup .request p ∧ s.cfg.dispatchOf p = .controlReturn a n r)
  (∀ s : State,
    let runs (i : Instr) (x : Disposition) : Prop :=
      exec i s = match x with
        | .controlReturn a n r => exec (.startControlReturn a n r) s
        | .receive b n k => exec (.startReceive b n k) s
        | .accept k => exec (.accept k) s
        | .reject => exec .reject s
    (∀ ty ix lang len, s.cfg.descriptor ty ix lang = none →
      exec (.getDescriptor ty ix lang len) s = exec .reject s) ∧
    (∀ v, runs (.getMaxLun v) (s.cfg.dispatchOf (maxLun s v))) ∧
    (∀ p, runs (.setup .request p) (s.cfg.dispatchOf p))) ∧
  ∀ (s : State) (i : Instr) (a n r : Nat), s.cfg.wf = true → s.cteState = .setupReceived →
    s.clear 0 .inp → s.clear 0 .out → answers s i a n r →
    (r = 0 → ∃ t, exec i s = .next t ∧ exec (.accept none) s = .next t ∧ StatusStage s t none ∧
      SameAboveZero s t ∧ SameMemory s t) ∧
    (0 < r → r ≤ 65535 → a + min (min n r) s.cfg.mps0 ≤ s.cfg.memSize →
      s.nextBuf 0 .inp + min (min n r) s.cfg.mps0 ≤ s.cfg.memSize →
      ∃ t, exec i s = .next t ∧ exec (.startControlReturn a n r) s = .next t ∧ t.cteState = .dataIn ∧
        t.cs.cursor = a + min (min n r) s.cfg.mps0 ∧ t.cs.remaining = min n r - min (min n r) s.cfg.mps0 ∧
        Offers s t 0 .inp (s.nextBuf 0 .inp) (min (min n r) s.cfg.mps0))

/-- R152, R153: `SET_ADDRESS` and `SET_CONFIGURATION`: the command, then the status stage; a configuration value
the device does not accept is rejected. -/
def Obligations.DeviceRequestsComplete : Prop :=
  ∀ (s : State) (v x : BitVec 16), s.cfg.wf = true → s.cteState = .setupReceived → s.clear 0 .inp →
    s.clear 0 .out →
    let low := v.extractLsb' 0 8
    (∃ t, exec (.setAddress v x) s = .next t ∧ StatusStage s t none ∧
      t.dev = { s.dev with pendingAddress := v.extractLsb' 0 7, pendingValid := true } ∧
      SameAboveZero s t ∧ SameMemory s t ∧
      t = { s with eps := t.eps, cs := t.cs, cteState := .status, ep0Hold := false, dev := t.dev
                   lentSession := (0, 0), reply := some (.code .ok) }) ∧
    (low = 0#8 ∨ low ∈ s.cfg.configValues →
      ∃ u t, exec (.setConfiguration v x) s = .next t ∧ exec (.devSetConfig low.toNat) s = .next u ∧
        SameAboveZero u t ∧ StatusStage s t none ∧
        t.dev = { s.dev with configurationValue := low } ∧
        t.msc = { s.msc.clearTransient with state := .idle } ∧ SameMemory s t ∧
        t = { s with eps := t.eps, tcq := u.tcq, cs := t.cs, cteState := .status, ep0Hold := false
                     dev := t.dev, msc := t.msc, outputs := u.outputs, lentSession := (0, 0)
                     reply := some (.code .ok) }) ∧
    (low ≠ 0#8 → low ∉ s.cfg.configValues → exec (.setConfiguration v x) s = exec .reject s)

/-- R154 to R156: the halt requests, and the Bulk-Only Mass Storage Reset: the command, then the status stage,
or `REJECT` where the command's result is not `OK`. For every endpoint direction above 0, the transport's too, a
halt request does there what its command does (a clear-halt in `STALL` or `CSW` so releases the CSW). -/
def Obligations.HaltRequestsComplete : Prop :=
  ∀ (s : State) (x : BitVec 16), s.cfg.wf = true → s.cteState = .setupReceived → s.clear 0 .inp →
    s.clear 0 .out → s.dev.configurationValue ≠ 0 →
    let e : EpNum := Fin.ofNat 16 (x.toNat % 16)
    let d : Dir := if x.getLsbD 7 then .inp else .out
    let othersKept (t : State) : Prop := ∀ e' d', e' ≠ 0 → e' ≠ e ∨ d' ≠ d → t.epDir e' d' = s.epDir e' d'
    let follows (command request : Instr) : Prop :=
      (∀ u, exec command s = .next u → u.reply = some (.code .ok) → e ≠ 0 →
        ∃ t, exec request s = .next t ∧ StatusStage s t none ∧ SameAboveZero u t ∧
          t = { u with eps := t.eps, cs := t.cs, cteState := .status, ep0Hold := false
                       lentSession := (0, 0), reply := some (.code .ok) }) ∧
      ∀ u r, exec command s = .next u → u.reply = some (.code r) → r ≠ .ok →
        exec request s = exec .reject s
    follows (.setHalt e d) (.setFeatureEndpointHalt x) ∧
    follows (.clearHalt e d) (.clearFeatureEndpointHalt x) ∧
    (e ≠ 0 → e.val < s.cfg.nEp → s.isMsc e d = false ∨ (s.msc.state ≠ .dataIn ∧ s.msc.state ≠ .dataOut) →
      (s.epDir e d).halted = false →
      ∃ t, exec (.setFeatureEndpointHalt x) s = .next t ∧ StatusStage s t none ∧ Halts s t e d ∧
        othersKept t ∧ SameMemory s t ∧
        t = { s with eps := t.eps, tcq := t.tcq, msc := t.msc, cs := t.cs, cteState := .status
                     ep0Hold := false, lentSession := (0, 0), reply := some (.code .ok) }) ∧
    (e ≠ 0 → e.val < s.cfg.nEp → s.isMsc e d = false → (s.epDir e d).halted = true →
      ∃ t, exec (.clearFeatureEndpointHalt x) s = .next t ∧ StatusStage s t none ∧ Releases s t e d ∧
        othersKept t ∧ SameMemory s t ∧
        t = { s with eps := t.eps, cs := t.cs, cteState := .status, ep0Hold := false
                     lentSession := (0, 0), reply := some (.code .ok) }) ∧
    (∃ u t, exec .bulkOnlyMassStorageReset s = .next t ∧ exec .mscReset s = .next u ∧ SameAboveZero u t ∧
      StatusStage s t none ∧ t.msc = { s.msc.clearTransient with state := .idle } ∧ SameMemory s t ∧
      t = { s with eps := t.eps, tcq := u.tcq, cs := t.cs, cteState := .status, ep0Hold := false
                   msc := t.msc, outputs := u.outputs, lentSession := (0, 0), reply := some (.code .ok) })

/-- 30_encoding.md R95 with 40_arbiter.md R104 and 41_control_engine.md R121: the pseudo-operation `SETUP`:
the packet is received and consumed, latched byte for byte, and the dispatcher is asked. -/
def Obligations.SetupOnWireIsReceived : Prop :=
  ∀ (s : State) (p : SetupPacket), s.memoryOk → s.ep0Hold = false → s.tcIrqEn = true → s.tcq = [] →
    let k := s.hw 0 .out
    let b := (s.epDir 0 .out).bd k
    b.owner = .hw → 8 ≤ b.count → b.addr + 8 ≤ s.cfg.memSize → s.rd 0 .out = k →
    ∃ u t, exec (.hwSetup p.bytes) s = .next u ∧ exec .cteSetup u = .next t ∧
      exec (.setup .wire p) s = .next t ∧ t.setup = p ∧ t.cteState = .setupReceived ∧ t.ep0Hold = true ∧
      t.cs.direction = (if p.bmRequestType.getLsbD 7 then .inp else .out) ∧
      t.outputs = s.outputs ++ (if s.cteState ≠ .idle then s.cs.report false else []) ++ [.setupRequest p] ∧
      (∀ d, (t.epDir 0 d).halted = false ∧ (t.epDir 0 d).nextToggle = true) ∧
      (∀ j, ((t.epDir 0 .inp).bd j).owner = .fw) ∧
      t.bytes b.addr 8 = p.bytes ∧ SameMemoryOutside s t b.addr 8 ∧ SameAboveZero s t

/-! ### SCSI commands (44_scsi.md) -/

/-- R223, R224, R229, R230, R231: the commands that move no data: their intent is `Dn`, and a failure
latches its sense, which is `SENSE_TABLE`'s; and the table's default values. -/
def Obligations.CommandsWithoutData : Prop :=
  (let t := defaultSenseTable
   t.get .notReady = ⟨0x02, 0x3A⟩ ∧ t.get .writeProtected = ⟨0x07, 0x27⟩ ∧
   t.get .lbaOutOfRange = ⟨0x05, 0x21⟩ ∧ t.get .readError = ⟨0x03, 0x11⟩ ∧
   t.get .writeError = ⟨0x03, 0x0C⟩ ∧ t.get .invalidCommand = ⟨0x05, 0x20⟩ ∧
   t.get .startStopFailed = ⟨0x05, 0x24⟩) ∧
  ∀ s : State, s.dev.configurationValue ≠ 0 → s.msc.state = .idle →
    let l := s.msc.lun
    let a := s.drvOf l
    exec .testUnitReady s = .next { s with
      outputs := s.outputs ++ [.drvUnitReady l]
      sense := if a.ready then s.sense else s.cfg.sense .notReady
      reply := some (.eval .none 0 a.ready) } ∧
    (∀ st ej, exec (.startStopUnit st ej) s = .next { s with
      outputs := s.outputs ++ [.drvStartStop l st ej]
      sense := if a.startStopOk then s.sense else s.cfg.sense .startStopFailed
      reply := some (.eval .none 0 a.startStopOk) }) ∧
    (∀ op, exec (.scsiUnknown op) s = .next { s with
      sense := s.cfg.sense .invalidCommand, reply := some (.eval .none 0 false) })

/-- R221, R222, R225, R226, R232: the commands answered from the response register, and the failures of
`READ_CAPACITY_10`. `MODE_SENSE_6` records the block size as R232 says of every command that asks for it, though
R226 does not show the write (assumption 24). Where the driver counts more than `2^32` blocks, some word stands for
the address of the last one (assumption 30). -/
def Obligations.CommandsAnsweredFromResponse : Prop :=
  ∀ s : State, s.cfg.wf = true → s.dev.configurationValue ≠ 0 → s.msc.state = .idle →
    s.msc.resp.length = 36 → s.msc.lun.val ≤ s.cfg.maxLun.val →
    let l := s.msc.lun
    let a := s.drvOf l
    exec .inquiry s = .next { s with
      msc := { s.msc with resp := s.cfg.inquiry l, txSrc := .internal }
      reply := some (.eval .inp 36 true) } ∧
    exec .requestSense s = .next { s with
      msc := { s.msc with
        resp := [0x70, 0, s.sense.key, 0, 0, 0, 0, 10, 0, 0, 0, 0, s.sense.asc, 0, 0, 0, 0, 0] ++
          s.msc.resp.drop 18
        txSrc := .internal }
      sense := if s.cfg.senseClearOnRead then ⟨0, 0⟩ else s.sense
      reply := some (.eval .inp 18 true) } ∧
    exec .modeSense6 s = .next { s with
      outputs := s.outputs ++ [.drvGetInfo l]
      msc := { s.msc with
        blockSize := s.msc.blockSize.set l.val a.blockSize l.isLt
        resp := [3, 0, if a.writeProtect then 0x80 else 0, 0] ++ s.msc.resp.drop 4, txSrc := .internal }
      reply := some (.eval .inp 4 true) } ∧
    (let asked := s.outputs ++ [.drvUnitReady l, .drvGetInfo l]
     let cached := s.msc.blockSize.set l.val a.blockSize l.isLt
     let failed : State := { s with sense := s.cfg.sense .notReady, reply := some (.eval .none 0 false) }
     let answered (last : BitVec 32) : State := { s with
       outputs := asked
       msc := { s.msc with
         blockSize := cached, resp := be32 last ++ be32 a.blockSize ++ s.msc.resp.drop 8, txSrc := .internal }
       reply := some (.eval .inp 8 true) }
     (a.ready = false → exec .readCapacity10 s = .next { failed with
       outputs := s.outputs ++ [.drvUnitReady l] }) ∧
     (a.ready = true → a.count = 0 ∨ a.blockSize = 0 → exec .readCapacity10 s = .next { failed with
       outputs := asked, msc := { s.msc with blockSize := cached } }) ∧
     (a.ready = true → a.count ≠ 0 → a.blockSize ≠ 0 →
       (a.count ≤ 2 ^ 32 →
         exec .readCapacity10 s = .next (answered (BitVec.ofNat 32 (a.count - 1)))) ∧
       ∃ last, exec .readCapacity10 s = .next (answered last)))

/-- R227, R228, R231: `READ_10` and `WRITE_10`: the unit must be ready, the range check is made on natural numbers,
a write needs a medium that is not protected, and the intent is `blocks * block_size` bytes; each failure latches
its sense. -/
def Obligations.ReadAndWriteCheckRange : Prop :=
  ∀ (s : State) (lba : BitVec 32) (blocks : BitVec 16), s.dev.configurationValue ≠ 0 → s.msc.state = .idle →
    let l := s.msc.lun
    let a := s.drvOf l
    let asked := s.outputs ++ [.drvUnitReady l, .drvGetInfo l]
    let cached := s.msc.blockSize.set l.val a.blockSize l.isLt
    let inRange := a.blockSize ≠ 0 ∧ lba.toNat + blocks.toNat ≤ a.count
    let failed (r : SenseReason) : State := { s with
      outputs := asked, msc := { s.msc with blockSize := cached }, sense := s.cfg.sense r
      reply := some (.eval .none 0 false) }
    (blocks = 0 → exec (.read10 lba blocks) s = .next (s.answer (.eval .none 0 true)) ∧
      exec (.write10 lba blocks) s = .next (s.answer (.eval .none 0 true))) ∧
    (blocks ≠ 0 → a.ready = false → ∀ i, i = .read10 lba blocks ∨ i = .write10 lba blocks →
      exec i s = .next { s with
        outputs := s.outputs ++ [.drvUnitReady l], sense := s.cfg.sense .notReady
        reply := some (.eval .none 0 false) }) ∧
    (blocks ≠ 0 → a.ready = true → inRange →
      exec (.read10 lba blocks) s = .next { s with
        outputs := asked, msc := { s.msc with blockSize := cached, txSrc := .driver }
        reply := some (.eval .inp (blocks.toNat * a.blockSize.toNat) true) } ∧
      (a.writeProtect = false → exec (.write10 lba blocks) s = .next { s with
        outputs := asked, msc := { s.msc with blockSize := cached }
        reply := some (.eval .out (blocks.toNat * a.blockSize.toNat) true) })) ∧
    (blocks ≠ 0 → a.ready = true → ¬inRange →
      exec (.read10 lba blocks) s = .next (failed .lbaOutOfRange) ∧
      (a.writeProtect = false → exec (.write10 lba blocks) s = .next (failed .lbaOutOfRange))) ∧
    (blocks ≠ 0 → a.ready = true → a.writeProtect = true →
      exec (.write10 lba blocks) s = .next (failed .writeProtected))

/-! ### Descriptor words (30_encoding.md R88) -/

/-- The three rows are the writes of a control word that 30_encoding.md R88 and the opcode table name, each with
all that goes with it: `BD_ARMED` is `ARM`, `BD_STALLED` is `SET_HALT`, and `BD_RETURNED` is a transaction of the
channel that moves `n` bytes. A word that rule would not write there is answered `ERR_ARG`, or, of the channel, not
written. That a row is the whole rule that writes its word is DEDUCED (assumption 15). -/
def Obligations.DescriptorWordsAreStored : Prop :=
  ∀ (s : State) (e : EpNum) (d : Dir) (k tog : Bool) (n : BitVec 10), bdExists s.cfg e d k = true →
    let x := s.epDir e d
    let b := x.bd k
    let free := ¬(e = 0 ∧ s.ep0Hold = true) ∧ k = s.hw e d ∧ b.owner = .hw ∧ b.stall = false ∧ tog = b.toggle
    (k ≠ s.active e d ∨ tog ≠ s.armToggle e d →
      exec (.bdArmed e d k tog n) s = .next (s.answer (.code .errArg))) ∧
    (k = s.active e d → tog = s.armToggle e d → e = 0 ∨ s.dev.configurationValue ≠ 0 →
      n.toNat ≤ s.cfg.mps e d → x.halted = false → b.owner = .fw → x.unread k = false →
      ∃ t, exec (.bdArmed e d k tog n) s = .next t ∧ exec (.arm e d b.addr n.toNat) s = .next t ∧
        (t.epDir e d).bd k = ⟨b.addr, n.toNat, .hw, tog, false⟩ ∧
        (t.epDir e d).bd (!k) = x.bd (!k) ∧
        (t.epDir e d).activeIdx = (if s.cfg.pingpong e d then !k else x.activeIdx) ∧
        SameDirsBut s t e d ∧ SameMemory s t ∧ t = { s with eps := t.eps, reply := some (.code .ok) }) ∧
    (k ≠ s.hw e d ∨ n.toNat ≠ s.cfg.mps e d →
      exec (.bdStalled e d k n) s = .next (s.answer (.code .errArg))) ∧
    (k = s.hw e d → n.toNat = s.cfg.mps e d → e ≠ 0 → s.dev.configurationValue ≠ 0 →
      s.isMsc e d = false ∨ (s.msc.state ≠ .dataIn ∧ s.msc.state ≠ .dataOut) → x.halted = false →
      ∃ t, exec (.bdStalled e d k n) s = .next t ∧ exec (.setHalt e d) s = .next t ∧ Halts s t e d ∧
        SameDirsBut s t e d ∧ SameMemory s t ∧
        t = { s with eps := t.eps, tcq := t.tcq, msc := t.msc, reply := some (.code .ok) }) ∧
    (d = .out → free → n.toNat ≤ b.count → s.memoryOk → b.addr + n.toNat ≤ s.cfg.memSize →
      ∃ t, exec (.bdReturned e d k tog n) s = .next t ∧
        exec (.hwOut e tog (s.bytes b.addr n.toNat)) s = .next t ∧
        (t.epDir e d).bd k = ⟨b.addr, n.toNat, .fw, tog, false⟩ ∧ (t.epDir e d).unread k = true ∧
        SameDirsBut s t e d ∧ SameMemory s t ∧
        t = { s with eps := t.eps, mem := t.mem, tcq := s.tcq ++ [⟨e, .out⟩]
                     wire := s.wire ++ [.ack e .out] }) ∧
    (d = .inp → free → n.toNat = b.count → b.addr + n.toNat ≤ s.cfg.memSize →
      ∃ t, exec (.bdReturned e d k tog n) s = .next t ∧ exec (.hwIn e) s = .next t ∧
        (t.epDir e d).bd k = ⟨b.addr, n.toNat, .fw, tog, false⟩ ∧ (t.epDir e d).unread k = true ∧
        SameDirsBut s t e d ∧ SameMemory s t ∧
        t = { s with eps := t.eps, tcq := s.tcq ++ [⟨e, .inp⟩]
                     wire := s.wire ++ [.data e tog (s.bytes b.addr n.toNat)] }) ∧
    (¬free ∨ (d = .out ∧ b.count < n.toNat) ∨ (d = .inp ∧ n.toNat ≠ b.count) →
      exec (.bdReturned e d k tog n) s = .next s)
end

