-- ==== Sys2Proof/Laws/State.lean ====
section
/-! SUPPORT. One lemma per field per named update of State, so that no proof unfolds a record update, and
the reads of endpoint directions after an update. -/

namespace Sys2Proof.Machine

variable (s : State)

/-! `setEp` -/
@[simp] theorem State.setEp_cfg (e : EpNum) (x : Ep) : (s.setEp e x).cfg = s.cfg := rfl
@[simp] theorem State.setEp_eps (e : EpNum) (x : Ep) : (s.setEp e x).eps = s.eps.set e.val x e.isLt := rfl
@[simp] theorem State.setEp_ep0Hold (e : EpNum) (x : Ep) : (s.setEp e x).ep0Hold = s.ep0Hold := rfl
@[simp] theorem State.setEp_tcq (e : EpNum) (x : Ep) : (s.setEp e x).tcq = s.tcq := rfl
@[simp] theorem State.setEp_tcIrqEn (e : EpNum) (x : Ep) : (s.setEp e x).tcIrqEn = s.tcIrqEn := rfl
@[simp] theorem State.setEp_cteState (e : EpNum) (x : Ep) : (s.setEp e x).cteState = s.cteState := rfl
@[simp] theorem State.setEp_setup (e : EpNum) (x : Ep) : (s.setEp e x).setup = s.setup := rfl
@[simp] theorem State.setEp_cs (e : EpNum) (x : Ep) : (s.setEp e x).cs = s.cs := rfl
@[simp] theorem State.setEp_dev (e : EpNum) (x : Ep) : (s.setEp e x).dev = s.dev := rfl
@[simp] theorem State.setEp_msc (e : EpNum) (x : Ep) : (s.setEp e x).msc = s.msc := rfl
@[simp] theorem State.setEp_sense (e : EpNum) (x : Ep) : (s.setEp e x).sense = s.sense := rfl
@[simp] theorem State.setEp_mem (e : EpNum) (x : Ep) : (s.setEp e x).mem = s.mem := rfl
@[simp] theorem State.setEp_outputs (e : EpNum) (x : Ep) : (s.setEp e x).outputs = s.outputs := rfl
@[simp] theorem State.setEp_reply (e : EpNum) (x : Ep) : (s.setEp e x).reply = s.reply := rfl
@[simp] theorem State.setEp_wire (e : EpNum) (x : Ep) : (s.setEp e x).wire = s.wire := rfl
@[simp] theorem State.setEp_drv (e : EpNum) (x : Ep) : (s.setEp e x).drv = s.drv := rfl
@[simp] theorem State.setEp_busResetPending (e : EpNum) (x : Ep) : (s.setEp e x).busResetPending = s.busResetPending := rfl
@[simp] theorem State.setEp_lentSession (e : EpNum) (x : Ep) : (s.setEp e x).lentSession = s.lentSession := rfl
@[simp] theorem State.setEp_lentBlock (e : EpNum) (x : Ep) : (s.setEp e x).lentBlock = s.lentBlock := rfl
@[simp] theorem State.setEp_inputs (e : EpNum) (x : Ep) : (s.setEp e x).inputs = s.inputs := rfl

/-! `setEps` -/
@[simp] theorem State.setEps_cfg (x : Vector Ep 16) : (s.setEps x).cfg = s.cfg := rfl
@[simp] theorem State.setEps_eps (x : Vector Ep 16) : (s.setEps x).eps = x := rfl
@[simp] theorem State.setEps_ep0Hold (x : Vector Ep 16) : (s.setEps x).ep0Hold = s.ep0Hold := rfl
@[simp] theorem State.setEps_tcq (x : Vector Ep 16) : (s.setEps x).tcq = s.tcq := rfl
@[simp] theorem State.setEps_tcIrqEn (x : Vector Ep 16) : (s.setEps x).tcIrqEn = s.tcIrqEn := rfl
@[simp] theorem State.setEps_cteState (x : Vector Ep 16) : (s.setEps x).cteState = s.cteState := rfl
@[simp] theorem State.setEps_setup (x : Vector Ep 16) : (s.setEps x).setup = s.setup := rfl
@[simp] theorem State.setEps_cs (x : Vector Ep 16) : (s.setEps x).cs = s.cs := rfl
@[simp] theorem State.setEps_dev (x : Vector Ep 16) : (s.setEps x).dev = s.dev := rfl
@[simp] theorem State.setEps_msc (x : Vector Ep 16) : (s.setEps x).msc = s.msc := rfl
@[simp] theorem State.setEps_sense (x : Vector Ep 16) : (s.setEps x).sense = s.sense := rfl
@[simp] theorem State.setEps_mem (x : Vector Ep 16) : (s.setEps x).mem = s.mem := rfl
@[simp] theorem State.setEps_outputs (x : Vector Ep 16) : (s.setEps x).outputs = s.outputs := rfl
@[simp] theorem State.setEps_reply (x : Vector Ep 16) : (s.setEps x).reply = s.reply := rfl
@[simp] theorem State.setEps_wire (x : Vector Ep 16) : (s.setEps x).wire = s.wire := rfl
@[simp] theorem State.setEps_drv (x : Vector Ep 16) : (s.setEps x).drv = s.drv := rfl
@[simp] theorem State.setEps_busResetPending (x : Vector Ep 16) : (s.setEps x).busResetPending = s.busResetPending := rfl
@[simp] theorem State.setEps_lentSession (x : Vector Ep 16) : (s.setEps x).lentSession = s.lentSession := rfl
@[simp] theorem State.setEps_lentBlock (x : Vector Ep 16) : (s.setEps x).lentBlock = s.lentBlock := rfl
@[simp] theorem State.setEps_inputs (x : Vector Ep 16) : (s.setEps x).inputs = s.inputs := rfl

/-! `setHold` -/
@[simp] theorem State.setHold_cfg (b : Bool) : (s.setHold b).cfg = s.cfg := rfl
@[simp] theorem State.setHold_eps (b : Bool) : (s.setHold b).eps = s.eps := rfl
@[simp] theorem State.setHold_ep0Hold (b : Bool) : (s.setHold b).ep0Hold = b := rfl
@[simp] theorem State.setHold_tcq (b : Bool) : (s.setHold b).tcq = s.tcq := rfl
@[simp] theorem State.setHold_tcIrqEn (b : Bool) : (s.setHold b).tcIrqEn = s.tcIrqEn := rfl
@[simp] theorem State.setHold_cteState (b : Bool) : (s.setHold b).cteState = s.cteState := rfl
@[simp] theorem State.setHold_setup (b : Bool) : (s.setHold b).setup = s.setup := rfl
@[simp] theorem State.setHold_cs (b : Bool) : (s.setHold b).cs = s.cs := rfl
@[simp] theorem State.setHold_dev (b : Bool) : (s.setHold b).dev = s.dev := rfl
@[simp] theorem State.setHold_msc (b : Bool) : (s.setHold b).msc = s.msc := rfl
@[simp] theorem State.setHold_sense (b : Bool) : (s.setHold b).sense = s.sense := rfl
@[simp] theorem State.setHold_mem (b : Bool) : (s.setHold b).mem = s.mem := rfl
@[simp] theorem State.setHold_outputs (b : Bool) : (s.setHold b).outputs = s.outputs := rfl
@[simp] theorem State.setHold_reply (b : Bool) : (s.setHold b).reply = s.reply := rfl
@[simp] theorem State.setHold_wire (b : Bool) : (s.setHold b).wire = s.wire := rfl
@[simp] theorem State.setHold_drv (b : Bool) : (s.setHold b).drv = s.drv := rfl
@[simp] theorem State.setHold_busResetPending (b : Bool) : (s.setHold b).busResetPending = s.busResetPending := rfl
@[simp] theorem State.setHold_lentSession (b : Bool) : (s.setHold b).lentSession = s.lentSession := rfl
@[simp] theorem State.setHold_lentBlock (b : Bool) : (s.setHold b).lentBlock = s.lentBlock := rfl
@[simp] theorem State.setHold_inputs (b : Bool) : (s.setHold b).inputs = s.inputs := rfl
@[simp] theorem State.setHold_epDir (b : Bool) (e : EpNum) (d : Dir) : (s.setHold b).epDir e d = s.epDir e d := by
  cases d <;> rfl

/-! `setTcq` -/
@[simp] theorem State.setTcq_cfg (q : List Tc) : (s.setTcq q).cfg = s.cfg := rfl
@[simp] theorem State.setTcq_eps (q : List Tc) : (s.setTcq q).eps = s.eps := rfl
@[simp] theorem State.setTcq_ep0Hold (q : List Tc) : (s.setTcq q).ep0Hold = s.ep0Hold := rfl
@[simp] theorem State.setTcq_tcq (q : List Tc) : (s.setTcq q).tcq = q := rfl
@[simp] theorem State.setTcq_tcIrqEn (q : List Tc) : (s.setTcq q).tcIrqEn = s.tcIrqEn := rfl
@[simp] theorem State.setTcq_cteState (q : List Tc) : (s.setTcq q).cteState = s.cteState := rfl
@[simp] theorem State.setTcq_setup (q : List Tc) : (s.setTcq q).setup = s.setup := rfl
@[simp] theorem State.setTcq_cs (q : List Tc) : (s.setTcq q).cs = s.cs := rfl
@[simp] theorem State.setTcq_dev (q : List Tc) : (s.setTcq q).dev = s.dev := rfl
@[simp] theorem State.setTcq_msc (q : List Tc) : (s.setTcq q).msc = s.msc := rfl
@[simp] theorem State.setTcq_sense (q : List Tc) : (s.setTcq q).sense = s.sense := rfl
@[simp] theorem State.setTcq_mem (q : List Tc) : (s.setTcq q).mem = s.mem := rfl
@[simp] theorem State.setTcq_outputs (q : List Tc) : (s.setTcq q).outputs = s.outputs := rfl
@[simp] theorem State.setTcq_reply (q : List Tc) : (s.setTcq q).reply = s.reply := rfl
@[simp] theorem State.setTcq_wire (q : List Tc) : (s.setTcq q).wire = s.wire := rfl
@[simp] theorem State.setTcq_drv (q : List Tc) : (s.setTcq q).drv = s.drv := rfl
@[simp] theorem State.setTcq_busResetPending (q : List Tc) : (s.setTcq q).busResetPending = s.busResetPending := rfl
@[simp] theorem State.setTcq_lentSession (q : List Tc) : (s.setTcq q).lentSession = s.lentSession := rfl
@[simp] theorem State.setTcq_lentBlock (q : List Tc) : (s.setTcq q).lentBlock = s.lentBlock := rfl
@[simp] theorem State.setTcq_inputs (q : List Tc) : (s.setTcq q).inputs = s.inputs := rfl
@[simp] theorem State.setTcq_epDir (q : List Tc) (e : EpNum) (d : Dir) : (s.setTcq q).epDir e d = s.epDir e d := by
  cases d <;> rfl

/-! `setIrq` -/
@[simp] theorem State.setIrq_cfg (b : Bool) : (s.setIrq b).cfg = s.cfg := rfl
@[simp] theorem State.setIrq_eps (b : Bool) : (s.setIrq b).eps = s.eps := rfl
@[simp] theorem State.setIrq_ep0Hold (b : Bool) : (s.setIrq b).ep0Hold = s.ep0Hold := rfl
@[simp] theorem State.setIrq_tcq (b : Bool) : (s.setIrq b).tcq = s.tcq := rfl
@[simp] theorem State.setIrq_tcIrqEn (b : Bool) : (s.setIrq b).tcIrqEn = b := rfl
@[simp] theorem State.setIrq_cteState (b : Bool) : (s.setIrq b).cteState = s.cteState := rfl
@[simp] theorem State.setIrq_setup (b : Bool) : (s.setIrq b).setup = s.setup := rfl
@[simp] theorem State.setIrq_cs (b : Bool) : (s.setIrq b).cs = s.cs := rfl
@[simp] theorem State.setIrq_dev (b : Bool) : (s.setIrq b).dev = s.dev := rfl
@[simp] theorem State.setIrq_msc (b : Bool) : (s.setIrq b).msc = s.msc := rfl
@[simp] theorem State.setIrq_sense (b : Bool) : (s.setIrq b).sense = s.sense := rfl
@[simp] theorem State.setIrq_mem (b : Bool) : (s.setIrq b).mem = s.mem := rfl
@[simp] theorem State.setIrq_outputs (b : Bool) : (s.setIrq b).outputs = s.outputs := rfl
@[simp] theorem State.setIrq_reply (b : Bool) : (s.setIrq b).reply = s.reply := rfl
@[simp] theorem State.setIrq_wire (b : Bool) : (s.setIrq b).wire = s.wire := rfl
@[simp] theorem State.setIrq_drv (b : Bool) : (s.setIrq b).drv = s.drv := rfl
@[simp] theorem State.setIrq_busResetPending (b : Bool) : (s.setIrq b).busResetPending = s.busResetPending := rfl
@[simp] theorem State.setIrq_lentSession (b : Bool) : (s.setIrq b).lentSession = s.lentSession := rfl
@[simp] theorem State.setIrq_lentBlock (b : Bool) : (s.setIrq b).lentBlock = s.lentBlock := rfl
@[simp] theorem State.setIrq_inputs (b : Bool) : (s.setIrq b).inputs = s.inputs := rfl
@[simp] theorem State.setIrq_epDir (b : Bool) (e : EpNum) (d : Dir) : (s.setIrq b).epDir e d = s.epDir e d := by
  cases d <;> rfl

/-! `setCte` -/
@[simp] theorem State.setCte_cfg (x : CteState) : (s.setCte x).cfg = s.cfg := rfl
@[simp] theorem State.setCte_eps (x : CteState) : (s.setCte x).eps = s.eps := rfl
@[simp] theorem State.setCte_ep0Hold (x : CteState) : (s.setCte x).ep0Hold = s.ep0Hold := rfl
@[simp] theorem State.setCte_tcq (x : CteState) : (s.setCte x).tcq = s.tcq := rfl
@[simp] theorem State.setCte_tcIrqEn (x : CteState) : (s.setCte x).tcIrqEn = s.tcIrqEn := rfl
@[simp] theorem State.setCte_cteState (x : CteState) : (s.setCte x).cteState = x := rfl
@[simp] theorem State.setCte_setup (x : CteState) : (s.setCte x).setup = s.setup := rfl
@[simp] theorem State.setCte_cs (x : CteState) : (s.setCte x).cs = s.cs := rfl
@[simp] theorem State.setCte_dev (x : CteState) : (s.setCte x).dev = s.dev := rfl
@[simp] theorem State.setCte_msc (x : CteState) : (s.setCte x).msc = s.msc := rfl
@[simp] theorem State.setCte_sense (x : CteState) : (s.setCte x).sense = s.sense := rfl
@[simp] theorem State.setCte_mem (x : CteState) : (s.setCte x).mem = s.mem := rfl
@[simp] theorem State.setCte_outputs (x : CteState) : (s.setCte x).outputs = s.outputs := rfl
@[simp] theorem State.setCte_reply (x : CteState) : (s.setCte x).reply = s.reply := rfl
@[simp] theorem State.setCte_wire (x : CteState) : (s.setCte x).wire = s.wire := rfl
@[simp] theorem State.setCte_drv (x : CteState) : (s.setCte x).drv = s.drv := rfl
@[simp] theorem State.setCte_busResetPending (x : CteState) : (s.setCte x).busResetPending = s.busResetPending := rfl
@[simp] theorem State.setCte_lentSession (x : CteState) : (s.setCte x).lentSession = s.lentSession := rfl
@[simp] theorem State.setCte_lentBlock (x : CteState) : (s.setCte x).lentBlock = s.lentBlock := rfl
@[simp] theorem State.setCte_inputs (x : CteState) : (s.setCte x).inputs = s.inputs := rfl
@[simp] theorem State.setCte_epDir (x : CteState) (e : EpNum) (d : Dir) : (s.setCte x).epDir e d = s.epDir e d := by
  cases d <;> rfl

/-! `setSetup` -/
@[simp] theorem State.setSetup_cfg (p : SetupPacket) : (s.setSetup p).cfg = s.cfg := rfl
@[simp] theorem State.setSetup_eps (p : SetupPacket) : (s.setSetup p).eps = s.eps := rfl
@[simp] theorem State.setSetup_ep0Hold (p : SetupPacket) : (s.setSetup p).ep0Hold = s.ep0Hold := rfl
@[simp] theorem State.setSetup_tcq (p : SetupPacket) : (s.setSetup p).tcq = s.tcq := rfl
@[simp] theorem State.setSetup_tcIrqEn (p : SetupPacket) : (s.setSetup p).tcIrqEn = s.tcIrqEn := rfl
@[simp] theorem State.setSetup_cteState (p : SetupPacket) : (s.setSetup p).cteState = s.cteState := rfl
@[simp] theorem State.setSetup_setup (p : SetupPacket) : (s.setSetup p).setup = p := rfl
@[simp] theorem State.setSetup_cs (p : SetupPacket) : (s.setSetup p).cs = s.cs := rfl
@[simp] theorem State.setSetup_dev (p : SetupPacket) : (s.setSetup p).dev = s.dev := rfl
@[simp] theorem State.setSetup_msc (p : SetupPacket) : (s.setSetup p).msc = s.msc := rfl
@[simp] theorem State.setSetup_sense (p : SetupPacket) : (s.setSetup p).sense = s.sense := rfl
@[simp] theorem State.setSetup_mem (p : SetupPacket) : (s.setSetup p).mem = s.mem := rfl
@[simp] theorem State.setSetup_outputs (p : SetupPacket) : (s.setSetup p).outputs = s.outputs := rfl
@[simp] theorem State.setSetup_reply (p : SetupPacket) : (s.setSetup p).reply = s.reply := rfl
@[simp] theorem State.setSetup_wire (p : SetupPacket) : (s.setSetup p).wire = s.wire := rfl
@[simp] theorem State.setSetup_drv (p : SetupPacket) : (s.setSetup p).drv = s.drv := rfl
@[simp] theorem State.setSetup_busResetPending (p : SetupPacket) : (s.setSetup p).busResetPending = s.busResetPending := rfl
@[simp] theorem State.setSetup_lentSession (p : SetupPacket) : (s.setSetup p).lentSession = s.lentSession := rfl
@[simp] theorem State.setSetup_lentBlock (p : SetupPacket) : (s.setSetup p).lentBlock = s.lentBlock := rfl
@[simp] theorem State.setSetup_inputs (p : SetupPacket) : (s.setSetup p).inputs = s.inputs := rfl
@[simp] theorem State.setSetup_epDir (p : SetupPacket) (e : EpNum) (d : Dir) : (s.setSetup p).epDir e d = s.epDir e d := by
  cases d <;> rfl

/-! `setCs` -/
@[simp] theorem State.setCs_cfg (x : Session) : (s.setCs x).cfg = s.cfg := rfl
@[simp] theorem State.setCs_eps (x : Session) : (s.setCs x).eps = s.eps := rfl
@[simp] theorem State.setCs_ep0Hold (x : Session) : (s.setCs x).ep0Hold = s.ep0Hold := rfl
@[simp] theorem State.setCs_tcq (x : Session) : (s.setCs x).tcq = s.tcq := rfl
@[simp] theorem State.setCs_tcIrqEn (x : Session) : (s.setCs x).tcIrqEn = s.tcIrqEn := rfl
@[simp] theorem State.setCs_cteState (x : Session) : (s.setCs x).cteState = s.cteState := rfl
@[simp] theorem State.setCs_setup (x : Session) : (s.setCs x).setup = s.setup := rfl
@[simp] theorem State.setCs_cs (x : Session) : (s.setCs x).cs = x := rfl
@[simp] theorem State.setCs_dev (x : Session) : (s.setCs x).dev = s.dev := rfl
@[simp] theorem State.setCs_msc (x : Session) : (s.setCs x).msc = s.msc := rfl
@[simp] theorem State.setCs_sense (x : Session) : (s.setCs x).sense = s.sense := rfl
@[simp] theorem State.setCs_mem (x : Session) : (s.setCs x).mem = s.mem := rfl
@[simp] theorem State.setCs_outputs (x : Session) : (s.setCs x).outputs = s.outputs := rfl
@[simp] theorem State.setCs_reply (x : Session) : (s.setCs x).reply = s.reply := rfl
@[simp] theorem State.setCs_wire (x : Session) : (s.setCs x).wire = s.wire := rfl
@[simp] theorem State.setCs_drv (x : Session) : (s.setCs x).drv = s.drv := rfl
@[simp] theorem State.setCs_busResetPending (x : Session) : (s.setCs x).busResetPending = s.busResetPending := rfl
@[simp] theorem State.setCs_lentSession (x : Session) : (s.setCs x).lentSession = s.lentSession := rfl
@[simp] theorem State.setCs_lentBlock (x : Session) : (s.setCs x).lentBlock = s.lentBlock := rfl
@[simp] theorem State.setCs_inputs (x : Session) : (s.setCs x).inputs = s.inputs := rfl
@[simp] theorem State.setCs_epDir (x : Session) (e : EpNum) (d : Dir) : (s.setCs x).epDir e d = s.epDir e d := by
  cases d <;> rfl

/-! `setDev` -/
@[simp] theorem State.setDev_cfg (x : Device) : (s.setDev x).cfg = s.cfg := rfl
@[simp] theorem State.setDev_eps (x : Device) : (s.setDev x).eps = s.eps := rfl
@[simp] theorem State.setDev_ep0Hold (x : Device) : (s.setDev x).ep0Hold = s.ep0Hold := rfl
@[simp] theorem State.setDev_tcq (x : Device) : (s.setDev x).tcq = s.tcq := rfl
@[simp] theorem State.setDev_tcIrqEn (x : Device) : (s.setDev x).tcIrqEn = s.tcIrqEn := rfl
@[simp] theorem State.setDev_cteState (x : Device) : (s.setDev x).cteState = s.cteState := rfl
@[simp] theorem State.setDev_setup (x : Device) : (s.setDev x).setup = s.setup := rfl
@[simp] theorem State.setDev_cs (x : Device) : (s.setDev x).cs = s.cs := rfl
@[simp] theorem State.setDev_dev (x : Device) : (s.setDev x).dev = x := rfl
@[simp] theorem State.setDev_msc (x : Device) : (s.setDev x).msc = s.msc := rfl
@[simp] theorem State.setDev_sense (x : Device) : (s.setDev x).sense = s.sense := rfl
@[simp] theorem State.setDev_mem (x : Device) : (s.setDev x).mem = s.mem := rfl
@[simp] theorem State.setDev_outputs (x : Device) : (s.setDev x).outputs = s.outputs := rfl
@[simp] theorem State.setDev_reply (x : Device) : (s.setDev x).reply = s.reply := rfl
@[simp] theorem State.setDev_wire (x : Device) : (s.setDev x).wire = s.wire := rfl
@[simp] theorem State.setDev_drv (x : Device) : (s.setDev x).drv = s.drv := rfl
@[simp] theorem State.setDev_busResetPending (x : Device) : (s.setDev x).busResetPending = s.busResetPending := rfl
@[simp] theorem State.setDev_lentSession (x : Device) : (s.setDev x).lentSession = s.lentSession := rfl
@[simp] theorem State.setDev_lentBlock (x : Device) : (s.setDev x).lentBlock = s.lentBlock := rfl
@[simp] theorem State.setDev_inputs (x : Device) : (s.setDev x).inputs = s.inputs := rfl
@[simp] theorem State.setDev_epDir (x : Device) (e : EpNum) (d : Dir) : (s.setDev x).epDir e d = s.epDir e d := by
  cases d <;> rfl

/-! `setMsc` -/
@[simp] theorem State.setMsc_cfg (x : Msc) : (s.setMsc x).cfg = s.cfg := rfl
@[simp] theorem State.setMsc_eps (x : Msc) : (s.setMsc x).eps = s.eps := rfl
@[simp] theorem State.setMsc_ep0Hold (x : Msc) : (s.setMsc x).ep0Hold = s.ep0Hold := rfl
@[simp] theorem State.setMsc_tcq (x : Msc) : (s.setMsc x).tcq = s.tcq := rfl
@[simp] theorem State.setMsc_tcIrqEn (x : Msc) : (s.setMsc x).tcIrqEn = s.tcIrqEn := rfl
@[simp] theorem State.setMsc_cteState (x : Msc) : (s.setMsc x).cteState = s.cteState := rfl
@[simp] theorem State.setMsc_setup (x : Msc) : (s.setMsc x).setup = s.setup := rfl
@[simp] theorem State.setMsc_cs (x : Msc) : (s.setMsc x).cs = s.cs := rfl
@[simp] theorem State.setMsc_dev (x : Msc) : (s.setMsc x).dev = s.dev := rfl
@[simp] theorem State.setMsc_msc (x : Msc) : (s.setMsc x).msc = x := rfl
@[simp] theorem State.setMsc_sense (x : Msc) : (s.setMsc x).sense = s.sense := rfl
@[simp] theorem State.setMsc_mem (x : Msc) : (s.setMsc x).mem = s.mem := rfl
@[simp] theorem State.setMsc_outputs (x : Msc) : (s.setMsc x).outputs = s.outputs := rfl
@[simp] theorem State.setMsc_reply (x : Msc) : (s.setMsc x).reply = s.reply := rfl
@[simp] theorem State.setMsc_wire (x : Msc) : (s.setMsc x).wire = s.wire := rfl
@[simp] theorem State.setMsc_drv (x : Msc) : (s.setMsc x).drv = s.drv := rfl
@[simp] theorem State.setMsc_busResetPending (x : Msc) : (s.setMsc x).busResetPending = s.busResetPending := rfl
@[simp] theorem State.setMsc_lentSession (x : Msc) : (s.setMsc x).lentSession = s.lentSession := rfl
@[simp] theorem State.setMsc_lentBlock (x : Msc) : (s.setMsc x).lentBlock = s.lentBlock := rfl
@[simp] theorem State.setMsc_inputs (x : Msc) : (s.setMsc x).inputs = s.inputs := rfl
@[simp] theorem State.setMsc_epDir (x : Msc) (e : EpNum) (d : Dir) : (s.setMsc x).epDir e d = s.epDir e d := by
  cases d <;> rfl

/-! `setSense` -/
@[simp] theorem State.setSense_cfg (x : Sense) : (s.setSense x).cfg = s.cfg := rfl
@[simp] theorem State.setSense_eps (x : Sense) : (s.setSense x).eps = s.eps := rfl
@[simp] theorem State.setSense_ep0Hold (x : Sense) : (s.setSense x).ep0Hold = s.ep0Hold := rfl
@[simp] theorem State.setSense_tcq (x : Sense) : (s.setSense x).tcq = s.tcq := rfl
@[simp] theorem State.setSense_tcIrqEn (x : Sense) : (s.setSense x).tcIrqEn = s.tcIrqEn := rfl
@[simp] theorem State.setSense_cteState (x : Sense) : (s.setSense x).cteState = s.cteState := rfl
@[simp] theorem State.setSense_setup (x : Sense) : (s.setSense x).setup = s.setup := rfl
@[simp] theorem State.setSense_cs (x : Sense) : (s.setSense x).cs = s.cs := rfl
@[simp] theorem State.setSense_dev (x : Sense) : (s.setSense x).dev = s.dev := rfl
@[simp] theorem State.setSense_msc (x : Sense) : (s.setSense x).msc = s.msc := rfl
@[simp] theorem State.setSense_sense (x : Sense) : (s.setSense x).sense = x := rfl
@[simp] theorem State.setSense_mem (x : Sense) : (s.setSense x).mem = s.mem := rfl
@[simp] theorem State.setSense_outputs (x : Sense) : (s.setSense x).outputs = s.outputs := rfl
@[simp] theorem State.setSense_reply (x : Sense) : (s.setSense x).reply = s.reply := rfl
@[simp] theorem State.setSense_wire (x : Sense) : (s.setSense x).wire = s.wire := rfl
@[simp] theorem State.setSense_drv (x : Sense) : (s.setSense x).drv = s.drv := rfl
@[simp] theorem State.setSense_busResetPending (x : Sense) : (s.setSense x).busResetPending = s.busResetPending := rfl
@[simp] theorem State.setSense_lentSession (x : Sense) : (s.setSense x).lentSession = s.lentSession := rfl
@[simp] theorem State.setSense_lentBlock (x : Sense) : (s.setSense x).lentBlock = s.lentBlock := rfl
@[simp] theorem State.setSense_inputs (x : Sense) : (s.setSense x).inputs = s.inputs := rfl
@[simp] theorem State.setSense_epDir (x : Sense) (e : EpNum) (d : Dir) : (s.setSense x).epDir e d = s.epDir e d := by
  cases d <;> rfl

/-! `setMem` -/
@[simp] theorem State.setMem_cfg (m : List Host.Cell) : (s.setMem m).cfg = s.cfg := rfl
@[simp] theorem State.setMem_eps (m : List Host.Cell) : (s.setMem m).eps = s.eps := rfl
@[simp] theorem State.setMem_ep0Hold (m : List Host.Cell) : (s.setMem m).ep0Hold = s.ep0Hold := rfl
@[simp] theorem State.setMem_tcq (m : List Host.Cell) : (s.setMem m).tcq = s.tcq := rfl
@[simp] theorem State.setMem_tcIrqEn (m : List Host.Cell) : (s.setMem m).tcIrqEn = s.tcIrqEn := rfl
@[simp] theorem State.setMem_cteState (m : List Host.Cell) : (s.setMem m).cteState = s.cteState := rfl
@[simp] theorem State.setMem_setup (m : List Host.Cell) : (s.setMem m).setup = s.setup := rfl
@[simp] theorem State.setMem_cs (m : List Host.Cell) : (s.setMem m).cs = s.cs := rfl
@[simp] theorem State.setMem_dev (m : List Host.Cell) : (s.setMem m).dev = s.dev := rfl
@[simp] theorem State.setMem_msc (m : List Host.Cell) : (s.setMem m).msc = s.msc := rfl
@[simp] theorem State.setMem_sense (m : List Host.Cell) : (s.setMem m).sense = s.sense := rfl
@[simp] theorem State.setMem_mem (m : List Host.Cell) : (s.setMem m).mem = m := rfl
@[simp] theorem State.setMem_outputs (m : List Host.Cell) : (s.setMem m).outputs = s.outputs := rfl
@[simp] theorem State.setMem_reply (m : List Host.Cell) : (s.setMem m).reply = s.reply := rfl
@[simp] theorem State.setMem_wire (m : List Host.Cell) : (s.setMem m).wire = s.wire := rfl
@[simp] theorem State.setMem_drv (m : List Host.Cell) : (s.setMem m).drv = s.drv := rfl
@[simp] theorem State.setMem_busResetPending (m : List Host.Cell) : (s.setMem m).busResetPending = s.busResetPending := rfl
@[simp] theorem State.setMem_lentSession (m : List Host.Cell) : (s.setMem m).lentSession = s.lentSession := rfl
@[simp] theorem State.setMem_lentBlock (m : List Host.Cell) : (s.setMem m).lentBlock = s.lentBlock := rfl
@[simp] theorem State.setMem_inputs (m : List Host.Cell) : (s.setMem m).inputs = s.inputs := rfl
@[simp] theorem State.setMem_epDir (m : List Host.Cell) (e : EpNum) (d : Dir) : (s.setMem m).epDir e d = s.epDir e d := by
  cases d <;> rfl

/-! `emit` -/
@[simp] theorem State.emit_cfg (o : Output) : (s.emit o).cfg = s.cfg := rfl
@[simp] theorem State.emit_eps (o : Output) : (s.emit o).eps = s.eps := rfl
@[simp] theorem State.emit_ep0Hold (o : Output) : (s.emit o).ep0Hold = s.ep0Hold := rfl
@[simp] theorem State.emit_tcq (o : Output) : (s.emit o).tcq = s.tcq := rfl
@[simp] theorem State.emit_tcIrqEn (o : Output) : (s.emit o).tcIrqEn = s.tcIrqEn := rfl
@[simp] theorem State.emit_cteState (o : Output) : (s.emit o).cteState = s.cteState := rfl
@[simp] theorem State.emit_setup (o : Output) : (s.emit o).setup = s.setup := rfl
@[simp] theorem State.emit_cs (o : Output) : (s.emit o).cs = s.cs := rfl
@[simp] theorem State.emit_dev (o : Output) : (s.emit o).dev = s.dev := rfl
@[simp] theorem State.emit_msc (o : Output) : (s.emit o).msc = s.msc := rfl
@[simp] theorem State.emit_sense (o : Output) : (s.emit o).sense = s.sense := rfl
@[simp] theorem State.emit_mem (o : Output) : (s.emit o).mem = s.mem := rfl
@[simp] theorem State.emit_outputs (o : Output) : (s.emit o).outputs = s.outputs ++ [o] := rfl
@[simp] theorem State.emit_reply (o : Output) : (s.emit o).reply = s.reply := rfl
@[simp] theorem State.emit_wire (o : Output) : (s.emit o).wire = s.wire := rfl
@[simp] theorem State.emit_drv (o : Output) : (s.emit o).drv = s.drv := rfl
@[simp] theorem State.emit_busResetPending (o : Output) : (s.emit o).busResetPending = s.busResetPending := rfl
@[simp] theorem State.emit_lentSession (o : Output) : (s.emit o).lentSession = s.lentSession := rfl
@[simp] theorem State.emit_lentBlock (o : Output) : (s.emit o).lentBlock = s.lentBlock := rfl
@[simp] theorem State.emit_inputs (o : Output) : (s.emit o).inputs = s.inputs := rfl
@[simp] theorem State.emit_epDir (o : Output) (e : EpNum) (d : Dir) : (s.emit o).epDir e d = s.epDir e d := by
  cases d <;> rfl

/-! `answer` -/
@[simp] theorem State.answer_cfg (r : Reply) : (s.answer r).cfg = s.cfg := rfl
@[simp] theorem State.answer_eps (r : Reply) : (s.answer r).eps = s.eps := rfl
@[simp] theorem State.answer_ep0Hold (r : Reply) : (s.answer r).ep0Hold = s.ep0Hold := rfl
@[simp] theorem State.answer_tcq (r : Reply) : (s.answer r).tcq = s.tcq := rfl
@[simp] theorem State.answer_tcIrqEn (r : Reply) : (s.answer r).tcIrqEn = s.tcIrqEn := rfl
@[simp] theorem State.answer_cteState (r : Reply) : (s.answer r).cteState = s.cteState := rfl
@[simp] theorem State.answer_setup (r : Reply) : (s.answer r).setup = s.setup := rfl
@[simp] theorem State.answer_cs (r : Reply) : (s.answer r).cs = s.cs := rfl
@[simp] theorem State.answer_dev (r : Reply) : (s.answer r).dev = s.dev := rfl
@[simp] theorem State.answer_msc (r : Reply) : (s.answer r).msc = s.msc := rfl
@[simp] theorem State.answer_sense (r : Reply) : (s.answer r).sense = s.sense := rfl
@[simp] theorem State.answer_mem (r : Reply) : (s.answer r).mem = s.mem := rfl
@[simp] theorem State.answer_outputs (r : Reply) : (s.answer r).outputs = s.outputs := rfl
@[simp] theorem State.answer_reply (r : Reply) : (s.answer r).reply = some r := rfl
@[simp] theorem State.answer_wire (r : Reply) : (s.answer r).wire = s.wire := rfl
@[simp] theorem State.answer_drv (r : Reply) : (s.answer r).drv = s.drv := rfl
@[simp] theorem State.answer_busResetPending (r : Reply) : (s.answer r).busResetPending = s.busResetPending := rfl
@[simp] theorem State.answer_lentSession (r : Reply) : (s.answer r).lentSession = s.lentSession := rfl
@[simp] theorem State.answer_lentBlock (r : Reply) : (s.answer r).lentBlock = s.lentBlock := rfl
@[simp] theorem State.answer_inputs (r : Reply) : (s.answer r).inputs = s.inputs := rfl
@[simp] theorem State.answer_epDir (r : Reply) (e : EpNum) (d : Dir) : (s.answer r).epDir e d = s.epDir e d := by
  cases d <;> rfl

/-! `show` -/
@[simp] theorem State.show_cfg (w : WireEvent) : (s.show w).cfg = s.cfg := rfl
@[simp] theorem State.show_eps (w : WireEvent) : (s.show w).eps = s.eps := rfl
@[simp] theorem State.show_ep0Hold (w : WireEvent) : (s.show w).ep0Hold = s.ep0Hold := rfl
@[simp] theorem State.show_tcq (w : WireEvent) : (s.show w).tcq = s.tcq := rfl
@[simp] theorem State.show_tcIrqEn (w : WireEvent) : (s.show w).tcIrqEn = s.tcIrqEn := rfl
@[simp] theorem State.show_cteState (w : WireEvent) : (s.show w).cteState = s.cteState := rfl
@[simp] theorem State.show_setup (w : WireEvent) : (s.show w).setup = s.setup := rfl
@[simp] theorem State.show_cs (w : WireEvent) : (s.show w).cs = s.cs := rfl
@[simp] theorem State.show_dev (w : WireEvent) : (s.show w).dev = s.dev := rfl
@[simp] theorem State.show_msc (w : WireEvent) : (s.show w).msc = s.msc := rfl
@[simp] theorem State.show_sense (w : WireEvent) : (s.show w).sense = s.sense := rfl
@[simp] theorem State.show_mem (w : WireEvent) : (s.show w).mem = s.mem := rfl
@[simp] theorem State.show_outputs (w : WireEvent) : (s.show w).outputs = s.outputs := rfl
@[simp] theorem State.show_reply (w : WireEvent) : (s.show w).reply = s.reply := rfl
@[simp] theorem State.show_wire (w : WireEvent) : (s.show w).wire = s.wire ++ [w] := rfl
@[simp] theorem State.show_drv (w : WireEvent) : (s.show w).drv = s.drv := rfl
@[simp] theorem State.show_busResetPending (w : WireEvent) : (s.show w).busResetPending = s.busResetPending := rfl
@[simp] theorem State.show_lentSession (w : WireEvent) : (s.show w).lentSession = s.lentSession := rfl
@[simp] theorem State.show_lentBlock (w : WireEvent) : (s.show w).lentBlock = s.lentBlock := rfl
@[simp] theorem State.show_inputs (w : WireEvent) : (s.show w).inputs = s.inputs := rfl
@[simp] theorem State.show_epDir (w : WireEvent) (e : EpNum) (d : Dir) : (s.show w).epDir e d = s.epDir e d := by
  cases d <;> rfl

/-! `setDrv` -/
@[simp] theorem State.setDrv_cfg (l : Lun) (x : DrvAnswers) : (s.setDrv l x).cfg = s.cfg := rfl
@[simp] theorem State.setDrv_eps (l : Lun) (x : DrvAnswers) : (s.setDrv l x).eps = s.eps := rfl
@[simp] theorem State.setDrv_ep0Hold (l : Lun) (x : DrvAnswers) : (s.setDrv l x).ep0Hold = s.ep0Hold := rfl
@[simp] theorem State.setDrv_tcq (l : Lun) (x : DrvAnswers) : (s.setDrv l x).tcq = s.tcq := rfl
@[simp] theorem State.setDrv_tcIrqEn (l : Lun) (x : DrvAnswers) : (s.setDrv l x).tcIrqEn = s.tcIrqEn := rfl
@[simp] theorem State.setDrv_cteState (l : Lun) (x : DrvAnswers) : (s.setDrv l x).cteState = s.cteState := rfl
@[simp] theorem State.setDrv_setup (l : Lun) (x : DrvAnswers) : (s.setDrv l x).setup = s.setup := rfl
@[simp] theorem State.setDrv_cs (l : Lun) (x : DrvAnswers) : (s.setDrv l x).cs = s.cs := rfl
@[simp] theorem State.setDrv_dev (l : Lun) (x : DrvAnswers) : (s.setDrv l x).dev = s.dev := rfl
@[simp] theorem State.setDrv_msc (l : Lun) (x : DrvAnswers) : (s.setDrv l x).msc = s.msc := rfl
@[simp] theorem State.setDrv_sense (l : Lun) (x : DrvAnswers) : (s.setDrv l x).sense = s.sense := rfl
@[simp] theorem State.setDrv_mem (l : Lun) (x : DrvAnswers) : (s.setDrv l x).mem = s.mem := rfl
@[simp] theorem State.setDrv_outputs (l : Lun) (x : DrvAnswers) : (s.setDrv l x).outputs = s.outputs := rfl
@[simp] theorem State.setDrv_reply (l : Lun) (x : DrvAnswers) : (s.setDrv l x).reply = s.reply := rfl
@[simp] theorem State.setDrv_wire (l : Lun) (x : DrvAnswers) : (s.setDrv l x).wire = s.wire := rfl
@[simp] theorem State.setDrv_drv (l : Lun) (x : DrvAnswers) : (s.setDrv l x).drv = s.drv.set l.val x l.isLt := rfl
@[simp] theorem State.setDrv_busResetPending (l : Lun) (x : DrvAnswers) : (s.setDrv l x).busResetPending = s.busResetPending := rfl
@[simp] theorem State.setDrv_lentSession (l : Lun) (x : DrvAnswers) : (s.setDrv l x).lentSession = s.lentSession := rfl
@[simp] theorem State.setDrv_lentBlock (l : Lun) (x : DrvAnswers) : (s.setDrv l x).lentBlock = s.lentBlock := rfl
@[simp] theorem State.setDrv_inputs (l : Lun) (x : DrvAnswers) : (s.setDrv l x).inputs = s.inputs := rfl
@[simp] theorem State.setDrv_epDir (l : Lun) (x : DrvAnswers) (e : EpNum) (d : Dir) : (s.setDrv l x).epDir e d = s.epDir e d := by
  cases d <;> rfl

/-! `setBusReset` -/
@[simp] theorem State.setBusReset_cfg (b : Bool) : (s.setBusReset b).cfg = s.cfg := rfl
@[simp] theorem State.setBusReset_eps (b : Bool) : (s.setBusReset b).eps = s.eps := rfl
@[simp] theorem State.setBusReset_ep0Hold (b : Bool) : (s.setBusReset b).ep0Hold = s.ep0Hold := rfl
@[simp] theorem State.setBusReset_tcq (b : Bool) : (s.setBusReset b).tcq = s.tcq := rfl
@[simp] theorem State.setBusReset_tcIrqEn (b : Bool) : (s.setBusReset b).tcIrqEn = s.tcIrqEn := rfl
@[simp] theorem State.setBusReset_cteState (b : Bool) : (s.setBusReset b).cteState = s.cteState := rfl
@[simp] theorem State.setBusReset_setup (b : Bool) : (s.setBusReset b).setup = s.setup := rfl
@[simp] theorem State.setBusReset_cs (b : Bool) : (s.setBusReset b).cs = s.cs := rfl
@[simp] theorem State.setBusReset_dev (b : Bool) : (s.setBusReset b).dev = s.dev := rfl
@[simp] theorem State.setBusReset_msc (b : Bool) : (s.setBusReset b).msc = s.msc := rfl
@[simp] theorem State.setBusReset_sense (b : Bool) : (s.setBusReset b).sense = s.sense := rfl
@[simp] theorem State.setBusReset_mem (b : Bool) : (s.setBusReset b).mem = s.mem := rfl
@[simp] theorem State.setBusReset_outputs (b : Bool) : (s.setBusReset b).outputs = s.outputs := rfl
@[simp] theorem State.setBusReset_reply (b : Bool) : (s.setBusReset b).reply = s.reply := rfl
@[simp] theorem State.setBusReset_wire (b : Bool) : (s.setBusReset b).wire = s.wire := rfl
@[simp] theorem State.setBusReset_drv (b : Bool) : (s.setBusReset b).drv = s.drv := rfl
@[simp] theorem State.setBusReset_busResetPending (b : Bool) : (s.setBusReset b).busResetPending = b := rfl
@[simp] theorem State.setBusReset_lentSession (b : Bool) : (s.setBusReset b).lentSession = s.lentSession := rfl
@[simp] theorem State.setBusReset_lentBlock (b : Bool) : (s.setBusReset b).lentBlock = s.lentBlock := rfl
@[simp] theorem State.setBusReset_inputs (b : Bool) : (s.setBusReset b).inputs = s.inputs := rfl
@[simp] theorem State.setBusReset_epDir (b : Bool) (e : EpNum) (d : Dir) : (s.setBusReset b).epDir e d = s.epDir e d := by
  cases d <;> rfl

/-! `lendSession` -/
@[simp] theorem State.lendSession_cfg (x : Nat × Nat) : (s.lendSession x).cfg = s.cfg := rfl
@[simp] theorem State.lendSession_eps (x : Nat × Nat) : (s.lendSession x).eps = s.eps := rfl
@[simp] theorem State.lendSession_ep0Hold (x : Nat × Nat) : (s.lendSession x).ep0Hold = s.ep0Hold := rfl
@[simp] theorem State.lendSession_tcq (x : Nat × Nat) : (s.lendSession x).tcq = s.tcq := rfl
@[simp] theorem State.lendSession_tcIrqEn (x : Nat × Nat) : (s.lendSession x).tcIrqEn = s.tcIrqEn := rfl
@[simp] theorem State.lendSession_cteState (x : Nat × Nat) : (s.lendSession x).cteState = s.cteState := rfl
@[simp] theorem State.lendSession_setup (x : Nat × Nat) : (s.lendSession x).setup = s.setup := rfl
@[simp] theorem State.lendSession_cs (x : Nat × Nat) : (s.lendSession x).cs = s.cs := rfl
@[simp] theorem State.lendSession_dev (x : Nat × Nat) : (s.lendSession x).dev = s.dev := rfl
@[simp] theorem State.lendSession_msc (x : Nat × Nat) : (s.lendSession x).msc = s.msc := rfl
@[simp] theorem State.lendSession_sense (x : Nat × Nat) : (s.lendSession x).sense = s.sense := rfl
@[simp] theorem State.lendSession_mem (x : Nat × Nat) : (s.lendSession x).mem = s.mem := rfl
@[simp] theorem State.lendSession_outputs (x : Nat × Nat) : (s.lendSession x).outputs = s.outputs := rfl
@[simp] theorem State.lendSession_reply (x : Nat × Nat) : (s.lendSession x).reply = s.reply := rfl
@[simp] theorem State.lendSession_wire (x : Nat × Nat) : (s.lendSession x).wire = s.wire := rfl
@[simp] theorem State.lendSession_drv (x : Nat × Nat) : (s.lendSession x).drv = s.drv := rfl
@[simp] theorem State.lendSession_busResetPending (x : Nat × Nat) : (s.lendSession x).busResetPending = s.busResetPending := rfl
@[simp] theorem State.lendSession_lentSession (x : Nat × Nat) : (s.lendSession x).lentSession = x := rfl
@[simp] theorem State.lendSession_lentBlock (x : Nat × Nat) : (s.lendSession x).lentBlock = s.lentBlock := rfl
@[simp] theorem State.lendSession_inputs (x : Nat × Nat) : (s.lendSession x).inputs = s.inputs := rfl
@[simp] theorem State.lendSession_epDir (x : Nat × Nat) (e : EpNum) (d : Dir) : (s.lendSession x).epDir e d = s.epDir e d := by
  cases d <;> rfl

/-! `lendBlock` -/
@[simp] theorem State.lendBlock_cfg (x : Nat × Nat) : (s.lendBlock x).cfg = s.cfg := rfl
@[simp] theorem State.lendBlock_eps (x : Nat × Nat) : (s.lendBlock x).eps = s.eps := rfl
@[simp] theorem State.lendBlock_ep0Hold (x : Nat × Nat) : (s.lendBlock x).ep0Hold = s.ep0Hold := rfl
@[simp] theorem State.lendBlock_tcq (x : Nat × Nat) : (s.lendBlock x).tcq = s.tcq := rfl
@[simp] theorem State.lendBlock_tcIrqEn (x : Nat × Nat) : (s.lendBlock x).tcIrqEn = s.tcIrqEn := rfl
@[simp] theorem State.lendBlock_cteState (x : Nat × Nat) : (s.lendBlock x).cteState = s.cteState := rfl
@[simp] theorem State.lendBlock_setup (x : Nat × Nat) : (s.lendBlock x).setup = s.setup := rfl
@[simp] theorem State.lendBlock_cs (x : Nat × Nat) : (s.lendBlock x).cs = s.cs := rfl
@[simp] theorem State.lendBlock_dev (x : Nat × Nat) : (s.lendBlock x).dev = s.dev := rfl
@[simp] theorem State.lendBlock_msc (x : Nat × Nat) : (s.lendBlock x).msc = s.msc := rfl
@[simp] theorem State.lendBlock_sense (x : Nat × Nat) : (s.lendBlock x).sense = s.sense := rfl
@[simp] theorem State.lendBlock_mem (x : Nat × Nat) : (s.lendBlock x).mem = s.mem := rfl
@[simp] theorem State.lendBlock_outputs (x : Nat × Nat) : (s.lendBlock x).outputs = s.outputs := rfl
@[simp] theorem State.lendBlock_reply (x : Nat × Nat) : (s.lendBlock x).reply = s.reply := rfl
@[simp] theorem State.lendBlock_wire (x : Nat × Nat) : (s.lendBlock x).wire = s.wire := rfl
@[simp] theorem State.lendBlock_drv (x : Nat × Nat) : (s.lendBlock x).drv = s.drv := rfl
@[simp] theorem State.lendBlock_busResetPending (x : Nat × Nat) : (s.lendBlock x).busResetPending = s.busResetPending := rfl
@[simp] theorem State.lendBlock_lentSession (x : Nat × Nat) : (s.lendBlock x).lentSession = s.lentSession := rfl
@[simp] theorem State.lendBlock_lentBlock (x : Nat × Nat) : (s.lendBlock x).lentBlock = x := rfl
@[simp] theorem State.lendBlock_inputs (x : Nat × Nat) : (s.lendBlock x).inputs = s.inputs := rfl
@[simp] theorem State.lendBlock_epDir (x : Nat × Nat) (e : EpNum) (d : Dir) : (s.lendBlock x).epDir e d = s.epDir e d := by
  cases d <;> rfl

/-! `setInputs` -/
@[simp] theorem State.setInputs_cfg (x : List Input) : (s.setInputs x).cfg = s.cfg := rfl
@[simp] theorem State.setInputs_eps (x : List Input) : (s.setInputs x).eps = s.eps := rfl
@[simp] theorem State.setInputs_ep0Hold (x : List Input) : (s.setInputs x).ep0Hold = s.ep0Hold := rfl
@[simp] theorem State.setInputs_tcq (x : List Input) : (s.setInputs x).tcq = s.tcq := rfl
@[simp] theorem State.setInputs_tcIrqEn (x : List Input) : (s.setInputs x).tcIrqEn = s.tcIrqEn := rfl
@[simp] theorem State.setInputs_cteState (x : List Input) : (s.setInputs x).cteState = s.cteState := rfl
@[simp] theorem State.setInputs_setup (x : List Input) : (s.setInputs x).setup = s.setup := rfl
@[simp] theorem State.setInputs_cs (x : List Input) : (s.setInputs x).cs = s.cs := rfl
@[simp] theorem State.setInputs_dev (x : List Input) : (s.setInputs x).dev = s.dev := rfl
@[simp] theorem State.setInputs_msc (x : List Input) : (s.setInputs x).msc = s.msc := rfl
@[simp] theorem State.setInputs_sense (x : List Input) : (s.setInputs x).sense = s.sense := rfl
@[simp] theorem State.setInputs_mem (x : List Input) : (s.setInputs x).mem = s.mem := rfl
@[simp] theorem State.setInputs_outputs (x : List Input) : (s.setInputs x).outputs = s.outputs := rfl
@[simp] theorem State.setInputs_reply (x : List Input) : (s.setInputs x).reply = s.reply := rfl
@[simp] theorem State.setInputs_wire (x : List Input) : (s.setInputs x).wire = s.wire := rfl
@[simp] theorem State.setInputs_drv (x : List Input) : (s.setInputs x).drv = s.drv := rfl
@[simp] theorem State.setInputs_busResetPending (x : List Input) : (s.setInputs x).busResetPending = s.busResetPending := rfl
@[simp] theorem State.setInputs_lentSession (x : List Input) : (s.setInputs x).lentSession = s.lentSession := rfl
@[simp] theorem State.setInputs_lentBlock (x : List Input) : (s.setInputs x).lentBlock = s.lentBlock := rfl
@[simp] theorem State.setInputs_inputs (x : List Input) : (s.setInputs x).inputs = x := rfl
@[simp] theorem State.setInputs_epDir (x : List Input) (e : EpNum) (d : Dir) : (s.setInputs x).epDir e d = s.epDir e d := by
  cases d <;> rfl

/-! Reads that only look at the configuration or at one field -/
@[simp] theorem State.pp_eq (e : EpNum) (d : Dir) : s.pp e d = s.cfg.pingpong e d := rfl
@[simp] theorem State.isMsc_out (e : EpNum) : s.isMsc e .out = (e == s.cfg.mscOut) := rfl
@[simp] theorem State.isMsc_inp (e : EpNum) : s.isMsc e .inp = (e == s.cfg.mscIn) := rfl
@[simp] theorem State.configured_eq : s.configured = (s.dev.configurationValue != 0) := rfl
@[simp] theorem State.gated_zero : s.gated 0 = false := by simp [State.gated]

/-! ### Endpoint directions -/

@[simp] theorem Ep.dir_setDir_same (x : Ep) (d : Dir) (y : EpDir) : (x.setDir d y).dir d = y := by
  cases d <;> rfl

theorem Ep.dir_setDir_ne (x : Ep) {d d' : Dir} (y : EpDir) (h : d' ≠ d) :
    (x.setDir d y).dir d' = x.dir d' := by
  cases d <;> cases d' <;> first | rfl | exact absurd rfl h

theorem State.epDir_eq (e : EpNum) (d : Dir) : s.epDir e d = (s.eps.get e).dir d := by cases d <;> rfl

/-- Reading the direction just written. -/
@[simp] theorem State.setEpDir_epDir_same (e : EpNum) (d : Dir) (y : EpDir) :
    (s.setEpDir e d y).epDir e d = y := by
  rw [State.epDir_eq]
  simp [State.setEpDir, Vector.get_eq_getElem]

/-- Reading another direction. -/
theorem State.setEpDir_epDir_ne (e : EpNum) (d : Dir) (y : EpDir) {e' : EpNum} {d' : Dir}
    (h : e' ≠ e ∨ d' ≠ d) : (s.setEpDir e d y).epDir e' d' = s.epDir e' d' := by
  rw [State.epDir_eq, State.epDir_eq]
  by_cases he : e' = e
  · subst he
    have hd : d' ≠ d := by simpa using h
    simp [State.setEpDir, Vector.get_eq_getElem, Ep.dir_setDir_ne _ _ hd]
  · have : e.val ≠ e'.val := fun hv => he (Fin.ext hv.symm)
    simp [State.setEpDir, Vector.get_eq_getElem, Vector.getElem_set_ne _ _ this]

@[simp] theorem State.onDir_epDir_same (e : EpNum) (d : Dir) (f : EpDir → EpDir) :
    (s.onDir e d f).epDir e d = f (s.epDir e d) := by simp [State.onDir]

theorem State.onDir_epDir_ne (e : EpNum) (d : Dir) (f : EpDir → EpDir) {e' : EpNum} {d' : Dir}
    (h : e' ≠ e ∨ d' ≠ d) : (s.onDir e d f).epDir e' d' = s.epDir e' d' :=
  State.setEpDir_epDir_ne s e d _ h

@[simp] theorem State.onDir_cfg (e : EpNum) (d : Dir) (f : EpDir → EpDir) : (s.onDir e d f).cfg = s.cfg := rfl
@[simp] theorem State.onDir_ep0Hold (e : EpNum) (d : Dir) (f : EpDir → EpDir) : (s.onDir e d f).ep0Hold = s.ep0Hold := rfl
@[simp] theorem State.onDir_tcq (e : EpNum) (d : Dir) (f : EpDir → EpDir) : (s.onDir e d f).tcq = s.tcq := rfl
@[simp] theorem State.onDir_tcIrqEn (e : EpNum) (d : Dir) (f : EpDir → EpDir) : (s.onDir e d f).tcIrqEn = s.tcIrqEn := rfl
@[simp] theorem State.onDir_cteState (e : EpNum) (d : Dir) (f : EpDir → EpDir) : (s.onDir e d f).cteState = s.cteState := rfl
@[simp] theorem State.onDir_setup (e : EpNum) (d : Dir) (f : EpDir → EpDir) : (s.onDir e d f).setup = s.setup := rfl
@[simp] theorem State.onDir_cs (e : EpNum) (d : Dir) (f : EpDir → EpDir) : (s.onDir e d f).cs = s.cs := rfl
@[simp] theorem State.onDir_dev (e : EpNum) (d : Dir) (f : EpDir → EpDir) : (s.onDir e d f).dev = s.dev := rfl
@[simp] theorem State.onDir_msc (e : EpNum) (d : Dir) (f : EpDir → EpDir) : (s.onDir e d f).msc = s.msc := rfl
@[simp] theorem State.onDir_sense (e : EpNum) (d : Dir) (f : EpDir → EpDir) : (s.onDir e d f).sense = s.sense := rfl
@[simp] theorem State.onDir_mem (e : EpNum) (d : Dir) (f : EpDir → EpDir) : (s.onDir e d f).mem = s.mem := rfl
@[simp] theorem State.onDir_outputs (e : EpNum) (d : Dir) (f : EpDir → EpDir) : (s.onDir e d f).outputs = s.outputs := rfl
@[simp] theorem State.onDir_reply (e : EpNum) (d : Dir) (f : EpDir → EpDir) : (s.onDir e d f).reply = s.reply := rfl
@[simp] theorem State.onDir_wire (e : EpNum) (d : Dir) (f : EpDir → EpDir) : (s.onDir e d f).wire = s.wire := rfl
@[simp] theorem State.onDir_drv (e : EpNum) (d : Dir) (f : EpDir → EpDir) : (s.onDir e d f).drv = s.drv := rfl
@[simp] theorem State.onDir_busResetPending (e : EpNum) (d : Dir) (f : EpDir → EpDir) : (s.onDir e d f).busResetPending = s.busResetPending := rfl
@[simp] theorem State.onDir_lentSession (e : EpNum) (d : Dir) (f : EpDir → EpDir) : (s.onDir e d f).lentSession = s.lentSession := rfl
@[simp] theorem State.onDir_lentBlock (e : EpNum) (d : Dir) (f : EpDir → EpDir) : (s.onDir e d f).lentBlock = s.lentBlock := rfl
@[simp] theorem State.onDir_inputs (e : EpNum) (d : Dir) (f : EpDir → EpDir) : (s.onDir e d f).inputs = s.inputs := rfl

/-! ### Descriptors -/

@[simp] theorem EpDir.setBd_bd_same (x : EpDir) (k : Bool) (b : Desc) : (x.setBd k b).bd k = b := by
  cases k <;> rfl
@[simp] theorem EpDir.setBd_bd_other (x : EpDir) (k : Bool) (b : Desc) : (x.setBd k b).bd (!k) = x.bd (!k) := by
  cases k <;> rfl
@[simp] theorem EpDir.setBd_halted (x : EpDir) (k : Bool) (b : Desc) : (x.setBd k b).halted = x.halted := by
  cases k <;> rfl
@[simp] theorem EpDir.setBd_nextToggle (x : EpDir) (k : Bool) (b : Desc) :
    (x.setBd k b).nextToggle = x.nextToggle := by cases k <;> rfl
@[simp] theorem EpDir.setBd_activeIdx (x : EpDir) (k : Bool) (b : Desc) :
    (x.setBd k b).activeIdx = x.activeIdx := by cases k <;> rfl
@[simp] theorem EpDir.setBd_hwIdx (x : EpDir) (k : Bool) (b : Desc) : (x.setBd k b).hwIdx = x.hwIdx := by
  cases k <;> rfl
@[simp] theorem EpDir.setBd_rdIdx (x : EpDir) (k : Bool) (b : Desc) : (x.setBd k b).rdIdx = x.rdIdx := by
  cases k <;> rfl
@[simp] theorem EpDir.setBd_unread (x : EpDir) (k j : Bool) (b : Desc) :
    (x.setBd k b).unread j = x.unread j := by cases k <;> rfl
@[simp] theorem EpDir.setUnread_same (x : EpDir) (k u : Bool) : (x.setUnread k u).unread k = u := by
  cases k <;> rfl
@[simp] theorem EpDir.setUnread_bd (x : EpDir) (k u j : Bool) : (x.setUnread k u).bd j = x.bd j := by
  cases k <;> rfl
@[simp] theorem EpDir.setUnread_halted (x : EpDir) (k u : Bool) : (x.setUnread k u).halted = x.halted := by
  cases k <;> rfl
@[simp] theorem EpDir.setUnread_nextToggle (x : EpDir) (k u : Bool) :
    (x.setUnread k u).nextToggle = x.nextToggle := by cases k <;> rfl
@[simp] theorem EpDir.setUnread_hwIdx (x : EpDir) (k u : Bool) : (x.setUnread k u).hwIdx = x.hwIdx := by
  cases k <;> rfl
@[simp] theorem EpDir.setUnread_rdIdx (x : EpDir) (k u : Bool) : (x.setUnread k u).rdIdx = x.rdIdx := by
  cases k <;> rfl
@[simp] theorem EpDir.setUnread_activeIdx (x : EpDir) (k u : Bool) :
    (x.setUnread k u).activeIdx = x.activeIdx := by cases k <;> rfl

@[simp] theorem EpDir.setBd_rearmed (x : EpDir) (k j : Bool) (b : Desc) :
    (x.setBd k b).rearmed j = x.rearmed j := by cases k <;> rfl
@[simp] theorem EpDir.setUnread_rearmed (x : EpDir) (k u j : Bool) :
    (x.setUnread k u).rearmed j = x.rearmed j := by cases k <;> rfl
@[simp] theorem EpDir.setRearmed_same (x : EpDir) (k r : Bool) : (x.setRearmed k r).rearmed k = r := by
  cases k <;> rfl
@[simp] theorem EpDir.setRearmed_other (x : EpDir) (k r : Bool) :
    (x.setRearmed k r).rearmed (!k) = x.rearmed (!k) := by cases k <;> rfl
@[simp] theorem EpDir.setRearmed_bd (x : EpDir) (k r j : Bool) : (x.setRearmed k r).bd j = x.bd j := by
  cases k <;> rfl
@[simp] theorem EpDir.setRearmed_unread (x : EpDir) (k r j : Bool) :
    (x.setRearmed k r).unread j = x.unread j := by cases k <;> rfl
@[simp] theorem EpDir.setRearmed_halted (x : EpDir) (k r : Bool) : (x.setRearmed k r).halted = x.halted := by
  cases k <;> rfl
@[simp] theorem EpDir.setRearmed_nextToggle (x : EpDir) (k r : Bool) :
    (x.setRearmed k r).nextToggle = x.nextToggle := by cases k <;> rfl
@[simp] theorem EpDir.setRearmed_hwIdx (x : EpDir) (k r : Bool) : (x.setRearmed k r).hwIdx = x.hwIdx := by
  cases k <;> rfl
@[simp] theorem EpDir.setRearmed_rdIdx (x : EpDir) (k r : Bool) : (x.setRearmed k r).rdIdx = x.rdIdx := by
  cases k <;> rfl
@[simp] theorem EpDir.setRearmed_activeIdx (x : EpDir) (k r : Bool) :
    (x.setRearmed k r).activeIdx = x.activeIdx := by cases k <;> rfl

/-! ### Tabulated tables -/

/-- Reading a tabulated value. -/
@[simp] theorem tabulate16_get {α : Type} (f : Fin 16 → α) (i : Fin 16) : (tabulate16 f).get i = f i := by
  simp [tabulate16, Vector.get_eq_getElem]

theorem State.setEps_epDir (f : EpNum → Ep) (e : EpNum) (d : Dir) :
    (s.setEps (tabulate16 f)).epDir e d = (f e).dir d := by
  rw [State.epDir_eq]; simp

end Sys2Proof.Machine
end

