-- ==== Sys2Proof/Laws/Memory.lean ====
section
/-! SUPPORT. Buffer memory: every operation keeps the canonical form, and reading after writing. -/

namespace Sys2Proof.Machine

@[simp] theorem Memory.read_nil (x : Nat) : Memory.read [] x = unlistedByte := rfl

theorem Memory.wf_nil : Memory.wf [] := ⟨List.Pairwise.nil, by simp⟩

theorem Memory.wf_tail {c : Host.Cell} {m : List Host.Cell} (h : Memory.wf (c :: m)) : Memory.wf m :=
  ⟨(List.pairwise_cons.1 h.1).2, fun x hx => h.2 x (List.mem_cons_of_mem _ hx)⟩

theorem Memory.wf_head_lt {a : Nat} {b : Byte} {m : List Host.Cell} (h : Memory.wf ((a, b) :: m)) :
    ∀ c ∈ m, a < c.1 := fun c hc => (List.pairwise_cons.1 h.1).1 c.1 (List.mem_map_of_mem hc)

theorem Memory.wf_cons {a : Nat} {b : Byte} {m : List Host.Cell} (h : Memory.wf m)
    (hlt : ∀ c ∈ m, a < c.1) (hb : b ≠ unlistedByte) : Memory.wf ((a, b) :: m) := by
  refine ⟨List.pairwise_cons.2 ⟨fun x hx => ?_, h.1⟩, fun c hc => ?_⟩
  · obtain ⟨c, hc, rfl⟩ := List.mem_map.1 hx
    exact hlt c hc
  · rcases List.mem_cons.1 hc with rfl | hc
    · exact hb
    · exact h.2 c hc

/-- Addresses of a written memory: old ones, or the one written. -/
theorem Memory.mem_write {m : List Host.Cell} {x : Nat} {v : Byte} {c : Host.Cell}
    (h : c ∈ Memory.write m x v) : c ∈ m ∨ c.1 = x := by
  induction m with
  | nil =>
    simp only [Memory.write] at h
    split at h
    · cases h
    · simp only [List.mem_singleton] at h; right; rw [h]
  | cons p rest ih =>
    obtain ⟨a, b⟩ := p
    simp only [Memory.write] at h
    split at h
    · split at h
      · exact .inl h
      · rcases List.mem_cons.1 h with h | h
        · right; rw [h]
        · exact .inl h
    · split at h
      · next hxa =>
        split at h
        · exact .inl (List.mem_cons_of_mem _ h)
        · rcases List.mem_cons.1 h with h | h
          · right; rw [h, hxa]
          · exact .inl (List.mem_cons_of_mem _ h)
      · rcases List.mem_cons.1 h with h | h
        · left; rw [h]; exact List.mem_cons_self
        · exact (ih h).imp (List.mem_cons_of_mem _) id

/-- A write keeps the canonical form. -/
theorem Memory.wf_write {m : List Host.Cell} (h : Memory.wf m) (x : Nat) (v : Byte) :
    Memory.wf (Memory.write m x v) := by
  induction m with
  | nil =>
    simp only [Memory.write]
    split
    · exact h
    · next hv => exact wf_cons wf_nil (by simp) hv
  | cons p rest ih =>
    obtain ⟨a, b⟩ := p
    have hlt := wf_head_lt h
    simp only [Memory.write]
    split
    · next hxa =>
      split
      · exact h
      · next hv =>
        refine wf_cons h (fun c hc => ?_) hv
        rcases List.mem_cons.1 hc with rfl | hc
        · exact hxa
        · exact Nat.lt_trans hxa (hlt c hc)
    · split
      · split
        · exact wf_tail h
        · next hv => exact wf_cons (wf_tail h) hlt hv
      · next hxa hne =>
        refine wf_cons (ih (wf_tail h)) (fun c hc => ?_) (h.2 (a, b) List.mem_cons_self)
        rcases mem_write hc with hc | hc
        · exact hlt c hc
        · rw [hc]; omega

/-- A run of writes keeps the canonical form. -/
theorem Memory.wf_writeBytes {m : List Host.Cell} (h : Memory.wf m) (a : Nat) (bs : List Byte) :
    Memory.wf (Memory.writeBytes m a bs) := by
  induction bs generalizing m a with
  | nil => exact h
  | cons b bs ih => exact ih (wf_write h a b) (a + 1)

/-- Below the lowest listed address every byte is the unlisted one. -/
theorem Memory.read_of_lt {m : List Host.Cell} {x : Nat} (h : ∀ c ∈ m, x < c.1) :
    Memory.read m x = unlistedByte := by
  cases m with
  | nil => rfl
  | cons p rest =>
    obtain ⟨a, b⟩ := p
    simp only [Memory.read]
    rw [if_pos (h (a, b) List.mem_cons_self)]

/-- Reading the byte just written. -/
theorem Memory.read_write_same {m : List Host.Cell} (h : Memory.wf m) (x : Nat) (v : Byte) :
    Memory.read (Memory.write m x v) x = v := by
  induction m with
  | nil =>
    simp only [Memory.write]
    split
    · next hv => simp [hv]
    · simp [Memory.read]
  | cons p rest ih =>
    obtain ⟨a, b⟩ := p
    have hlt := wf_head_lt h
    simp only [Memory.write]
    split
    · next hxa =>
      split
      · next hv => simp [Memory.read, hxa, hv]
      · simp [Memory.read]
    · split
      · next hxa =>
        subst hxa
        split
        · next hv => rw [read_of_lt hlt, hv]
        · simp [Memory.read]
      · next hxa hne => simp [Memory.read, hxa, hne, ih (wf_tail h)]

/-- Reading another byte. -/
theorem Memory.read_write_ne {m : List Host.Cell} (h : Memory.wf m) {x y : Nat} (hne : y ≠ x) (v : Byte) :
    Memory.read (Memory.write m x v) y = Memory.read m y := by
  induction m with
  | nil =>
    simp only [Memory.write]
    split
    · rfl
    · simp [Memory.read, hne]
  | cons p rest ih =>
    obtain ⟨a, b⟩ := p
    have hlt := wf_head_lt h
    simp only [Memory.write]
    split
    · next hxa =>
      split
      · rfl
      · by_cases hyx : y < x
        · have : y < a := Nat.lt_trans hyx hxa
          simp [Memory.read, hyx, this]
        · simp [Memory.read, hyx, hne]
    · split
      · next hxa =>
        subst hxa
        split
        · by_cases hyx : y < x
          · have hr := read_of_lt (m := rest) (x := y) fun c hc => Nat.lt_trans hyx (hlt c hc)
            simp [Memory.read, hyx, hr]
          · simp [Memory.read, hyx, hne]
        · simp [Memory.read, hne]
      · next hxa hna =>
        simp only [Memory.read, ih (wf_tail h)]

/-- Bytes outside a run of writes are as before. -/
theorem Memory.read_writeBytes_outside {m : List Host.Cell} (h : Memory.wf m) (a : Nat) (bs : List Byte)
    {x : Nat} (hx : x < a ∨ a + bs.length ≤ x) :
    Memory.read (Memory.writeBytes m a bs) x = Memory.read m x := by
  induction bs generalizing m a with
  | nil => rfl
  | cons b bs ih =>
    simp only [List.length_cons] at hx
    rw [Memory.writeBytes, ih (wf_write h a b) (a + 1) (by omega), read_write_ne h (by omega)]

/-- Byte `i` of a run of writes is the `i`-th byte written. -/
theorem Memory.read_writeBytes_inside {m : List Host.Cell} (h : Memory.wf m) (a : Nat) (bs : List Byte)
    {i : Nat} (hi : i < bs.length) : Memory.read (Memory.writeBytes m a bs) (a + i) = bs[i] := by
  induction bs generalizing m a i with
  | nil => cases hi
  | cons b bs ih =>
    cases i with
    | zero =>
      rw [Memory.writeBytes]
      simp only [Nat.add_zero, List.getElem_cons_zero]
      rw [read_writeBytes_outside (wf_write h a b) (a + 1) bs (Or.inl (Nat.lt_succ_self a)),
        read_write_same h]
    | succ i =>
      have := ih (wf_write h a b) (a + 1) (i := i) (by simpa using hi)
      rw [Memory.writeBytes]
      simp only [List.getElem_cons_succ]
      rw [← this]; congr 1; omega

@[simp] theorem Memory.length_readBytes (m : List Host.Cell) (a n : Nat) :
    (Memory.readBytes m a n).length = n := by
  induction n generalizing a with
  | zero => rfl
  | succ n ih => simp [Memory.readBytes, ih]

/-- Byte `i` of a read run. -/
theorem Memory.getElem_readBytes (m : List Host.Cell) (a n i : Nat) (hi : i < n) :
    (Memory.readBytes m a n)[i]'(by simpa using hi) = Memory.read m (a + i) := by
  induction n generalizing a i with
  | zero => omega
  | succ n ih =>
    cases i with
    | zero => simp [Memory.readBytes]
    | succ i =>
      have h := ih (a + 1) i (by omega)
      simp only [Memory.readBytes, List.getElem_cons_succ]
      rw [h]; congr 1; omega

/-- Two canonical memories that read alike are the same list. -/
theorem Memory.ext {m m' : List Host.Cell} (h : Memory.wf m) (h' : Memory.wf m')
    (heq : ∀ x, Memory.read m x = Memory.read m' x) : m = m' := by
  induction m generalizing m' with
  | nil =>
    cases m' with
    | nil => rfl
    | cons p rest =>
      obtain ⟨a, b⟩ := p
      have := heq a
      simp [Memory.read] at this
      exact absurd this.symm (h'.2 (a, b) List.mem_cons_self)
  | cons p rest ih =>
    obtain ⟨a, b⟩ := p
    cases m' with
    | nil =>
      have := heq a
      simp [Memory.read] at this
      exact absurd this (h.2 (a, b) List.mem_cons_self)
    | cons q rest' =>
      obtain ⟨a', b'⟩ := q
      have hb := h.2 (a, b) List.mem_cons_self
      have hb' := h'.2 (a', b') List.mem_cons_self
      have haa : a = a' := by
        rcases Nat.lt_trichotomy a a' with hlt | heq' | hgt
        · have := heq a
          simp [Memory.read, hlt] at this
          exact absurd this hb
        · exact heq'
        · have := heq a'
          simp [Memory.read, hgt] at this
          exact absurd this.symm hb'
      subst haa
      have hbb : b = b' := by
        have := heq a
        simpa [Memory.read] using this
      subst hbb
      rw [ih (wf_tail h) (wf_tail h') fun x => ?_]
      rcases Nat.lt_trichotomy x a with hlt | heq' | hgt
      · rw [read_of_lt fun c hc => Nat.lt_trans hlt (wf_head_lt h c hc),
          read_of_lt fun c hc => Nat.lt_trans hlt (wf_head_lt h' c hc)]
      · subst heq'
        rw [read_of_lt (wf_head_lt h), read_of_lt (wf_head_lt h')]
      · have := heq x
        have h1 : ¬ x < a := by omega
        have h2 : x ≠ a := by omega
        simpa [Memory.read, h1, h2] using this

/-- The reset memory is in canonical form. -/
theorem State.reset_mem_wf : Memory.wf State.reset.mem := Memory.wf_nil

/-! ### The memory operations of a rule -/

/-- What `MemWrite` can do: store the bytes, or stop. -/
theorem writeMem_next {s t : State} {a : Nat} {bs : List Byte} (h : writeMem s a bs = .next t) :
    a + bs.length ≤ s.cfg.memSize ∧ t = s.setMem (Memory.writeBytes s.mem a bs) := by
  unfold writeMem at h
  split at h
  · next hin => cases h; exact ⟨by simpa [State.inSpace] using hin, rfl⟩
  · cases h

/-- `MemWrite` completes in the address space. -/
theorem writeMem_ok {s : State} {a : Nat} {bs : List Byte} (h : a + bs.length ≤ s.cfg.memSize) :
    writeMem s a bs = .next (s.setMem (Memory.writeBytes s.mem a bs)) := by
  simp [writeMem, State.inSpace, h]

/-- `MemRead` in the address space. -/
theorem readMem_ok {s : State} {a n : Nat} (f : List Byte → Res) (h : a + n ≤ s.cfg.memSize) :
    readMem s a n f = f (s.bytes a n) := by simp [readMem, State.inSpace, h]

/-- What `MemRead` can lead to. -/
theorem readMem_next {s t : State} {a n : Nat} {f : List Byte → Res} (h : readMem s a n f = .next t) :
    a + n ≤ s.cfg.memSize ∧ f (s.bytes a n) = .next t := by
  unfold readMem at h
  split at h
  · next hin => exact ⟨by simpa [State.inSpace] using hin, h⟩
  · cases h

@[simp] theorem State.length_bytes (s : State) (a n : Nat) : (s.bytes a n).length = n :=
  Memory.length_readBytes ..

/-- What `MemCopy` can do: change memory only. -/
theorem copyMem_next {s t : State} {dst src n : Nat} (h : copyMem s dst src n = .next t) :
    t = s.setMem (Memory.writeBytes s.mem dst (s.bytes src n)) := by
  unfold copyMem at h
  split at h
  · next hn => cases h; subst hn; rfl
  · exact (writeMem_next (readMem_next h).2).2

/-- `MemCopy` completes in the address space. -/
theorem copyMem_ok {s : State} {dst src n : Nat} (h1 : src + n ≤ s.cfg.memSize)
    (h2 : dst + n ≤ s.cfg.memSize) :
    copyMem s dst src n = .next (s.setMem (Memory.writeBytes s.mem dst (s.bytes src n))) := by
  unfold copyMem
  split
  · next hn => subst hn; rfl
  · rw [readMem_ok _ h1, writeMem_ok (by simpa using h2)]

/-- A rule that answers next ran its first part to a next state. -/
theorem thenRun_next {r : Res} {f : State → Res} {t : State} (h : thenRun r f = .next t) :
    ∃ u, r = .next u ∧ f u = .next t := by
  cases r with
  | next u => exact ⟨u, rfl, h⟩
  | fault _ => cases h
  | refused _ => cases h

@[simp] theorem thenRun_next_eq (s : State) (f : State → Res) : thenRun (.next s) f = f s := rfl

end Sys2Proof.Machine
end

