-- ==== Sys2Proof/Laws/Arbiter.lean ====
section
/-! SUPPORT. What the arbiter's operations can do: `ARM`, `cancel`, `SET_HALT`, `flush`, `arm_out`, and the
consumption of a completion. One lemma says which fields an operation leaves alone, one what it does to its
direction, one what it does to the others. -/

namespace Sys2Proof.Machine

/-! ### Quiet directions -/

theorem State.quiet_iff (s : State) (e : EpNum) (d : Dir) : s.quiet e d = true ↔
    ∀ j ∈ s.indices e d, ((s.epDir e d).bd j).owner = .fw ∧ (s.epDir e d).unread j = false := by
  simp [State.quiet]

theorem State.active_mem (s : State) (e : EpNum) (d : Dir) : s.active e d ∈ s.indices e d := by
  unfold State.active State.indices
  cases s.pp e d <;> cases (s.epDir e d).activeIdx <;> simp

theorem State.hw_mem (s : State) (e : EpNum) (d : Dir) : s.hw e d ∈ s.indices e d := by
  unfold State.hw State.indices
  cases s.pp e d <;> cases (s.epDir e d).hwIdx <;> simp

theorem State.rd_mem (s : State) (e : EpNum) (d : Dir) : s.rd e d ∈ s.indices e d := by
  unfold State.rd State.indices
  cases s.pp e d <;> cases (s.epDir e d).rdIdx <;> simp

theorem State.armedCount_quiet {s : State} {e : EpNum} {d : Dir} (h : s.quiet e d = true) :
    s.armedCount e d = 0 := by
  rw [State.quiet_iff] at h
  unfold State.armedCount
  rw [List.length_eq_zero_iff, List.filter_eq_nil_iff]
  intro k hk
  simp [(h k hk).1]

theorem State.unreadCount_quiet {s : State} {e : EpNum} {d : Dir} (h : s.quiet e d = true) :
    s.unreadCount e d = 0 := by
  rw [State.quiet_iff] at h
  unfold State.unreadCount
  rw [List.length_eq_zero_iff, List.filter_eq_nil_iff]
  intro k hk
  simp [(h k hk).2]

theorem State.armToggle_quiet {s : State} {e : EpNum} {d : Dir} (h : s.quiet e d = true) :
    s.armToggle e d = (s.epDir e d).nextToggle := by
  simp [State.armToggle, State.armedCount_quiet h, State.unreadCount_quiet h]

/-! ### What depends on one direction only -/

theorem State.quiet_congr {s t : State} {e : EpNum} {d : Dir} (hc : t.cfg = s.cfg)
    (he : t.epDir e d = s.epDir e d) : t.quiet e d = s.quiet e d := by
  unfold State.quiet State.indices State.pp
  rw [hc, he]

theorem State.active_congr {s t : State} {e : EpNum} {d : Dir} (hc : t.cfg = s.cfg)
    (he : t.epDir e d = s.epDir e d) : t.active e d = s.active e d := by
  simp [State.active, hc, he]

theorem State.hw_congr {s t : State} {e : EpNum} {d : Dir} (hc : t.cfg = s.cfg)
    (he : t.epDir e d = s.epDir e d) : t.hw e d = s.hw e d := by
  simp [State.hw, hc, he]

theorem State.clear_congr {s t : State} {e : EpNum} {d : Dir} (hc : t.cfg = s.cfg)
    (he : t.epDir e d = s.epDir e d) : t.clear e d ↔ s.clear e d := by
  simp [State.clear, State.quiet_congr hc he, he]

theorem State.nextBuf_congr {s t : State} {e : EpNum} {d : Dir} (hc : t.cfg = s.cfg)
    (he : t.epDir e d = s.epDir e d) : t.nextBuf e d = s.nextBuf e d := by
  simp [State.nextBuf, State.active_congr hc he, hc]

theorem State.armToggle_congr {s t : State} {e : EpNum} {d : Dir} (hc : t.cfg = s.cfg)
    (he : t.epDir e d = s.epDir e d) : t.armToggle e d = s.armToggle e d := by
  unfold State.armToggle State.armedCount State.unreadCount State.indices State.pp
  rw [hc, he]

theorem Offers.congr {s s' t t' : State} {e : EpNum} {d : Dir} {a n : Nat} (hc : s'.cfg = s.cfg)
    (hs : s'.epDir e d = s.epDir e d) (ht : t'.epDir e d = t.epDir e d) :
    Offers s' t' e d a n ↔ Offers s t e d a n := by
  simp [Offers, State.active_congr hc hs, hs, ht, hc]

theorem Halts.congr {s s' t t' : State} {e : EpNum} {d : Dir} (hc : s'.cfg = s.cfg)
    (hs : s'.epDir e d = s.epDir e d) (ht : t'.epDir e d = t.epDir e d) :
    Halts s' t' e d ↔ Halts s t e d := by
  simp [Halts, State.hw_congr hc hs, hs, ht, hc]

theorem State.gated_configured {s : State} (h : s.dev.configurationValue ≠ 0) (e : EpNum) :
    s.gated e = false := by
  have hb : (s.dev.configurationValue != 0) = true := bne_iff_ne.2 h
  unfold State.gated State.configured
  rw [hb]; simp

theorem State.configured_of {s : State} (h : s.dev.configurationValue ≠ 0) : s.configured = true :=
  bne_iff_ne.2 h

theorem State.indices_congr {s t : State} (hc : t.cfg = s.cfg) (e : EpNum) (d : Dir) :
    t.indices e d = s.indices e d := by
  unfold State.indices State.pp
  rw [hc]

/-! ### A command's endpoint number -/

@[simp] theorem onEndpoint_val (e : EpNum) (s : State) (f : EpNum → Res) : onEndpoint e.val s f = f e := by
  simp [onEndpoint]

theorem onEndpoint_ge {n : Nat} (h : 16 ≤ n) (s : State) (f : EpNum → Res) :
    onEndpoint n s f = answerCode s .errArg := by simp [onEndpoint, Nat.not_lt.2 h]

@[simp] theorem Config.offers_toNat (c : Config) (v : Byte) : c.offers v.toNat = true ↔ v ∈ c.configValues := by
  unfold Config.offers
  rw [List.any_eq_true]
  exact ⟨fun ⟨b, hb, h⟩ => BitVec.eq_of_toNat_eq (beq_iff_eq.1 h) ▸ hb, fun h => ⟨v, h, beq_self_eq_true _⟩⟩

/-- No byte is larger than 255. -/
theorem Config.offers_large {n : Nat} (h : 255 < n) (c : Config) : c.offers n = false := by
  unfold Config.offers
  rw [List.any_eq_false]
  intro b _ hb
  have := b.isLt
  have := beq_iff_eq.1 hb
  omega

/-! ### ARM -/

/-- Every field but the endpoint table is left alone by `ARM`. -/
theorem armIn_frame (s : State) (e : EpNum) (d : Dir) (a n : Nat) :
    armIn s e d a n = { s with eps := (armIn s e d a n).eps } := by
  unfold armIn armStore
  split <;> rfl

theorem armStore_frame (s : State) (e : EpNum) (d : Dir) (a n : Nat) :
    armStore s e d a n = { s with eps := (armStore s e d a n).eps } := rfl

@[simp] theorem armIn_cfg (s : State) (e : EpNum) (d : Dir) (a n : Nat) : (armIn s e d a n).cfg = s.cfg := by
  rw [armIn_frame]

theorem armIn_epDir_ne (s : State) (e : EpNum) (d : Dir) (a n : Nat) {e' : EpNum} {d' : Dir}
    (h : e' ≠ e ∨ d' ≠ d) : (armIn s e d a n).epDir e' d' = s.epDir e' d' := by
  unfold armIn armStore
  split
  · exact State.onDir_epDir_ne _ _ _ _ h
  · rfl

/-- What `ARM` writes to its direction when it succeeds. -/
theorem armStore_epDir (s : State) (e : EpNum) (d : Dir) (a n : Nat) :
    (armStore s e d a n).epDir e d =
      (let x := ((s.epDir e d).setBd (s.active e d) ⟨a, n, .hw, s.armToggle e d, false⟩).setRearmed (s.active e d) true
       if s.pp e d then { x with activeIdx := !s.active e d } else x) := by
  simp [armStore]

theorem armIn_epDir (s : State) (e : EpNum) (d : Dir) (a n : Nat) :
    (armIn s e d a n).epDir e d =
      if armResult s e d n = .ok then
        (let x := ((s.epDir e d).setBd (s.active e d) ⟨a, n, .hw, s.armToggle e d, false⟩).setRearmed (s.active e d) true
         if s.pp e d then { x with activeIdx := !s.active e d } else x)
      else s.epDir e d := by
  unfold armIn
  split
  · exact armStore_epDir ..
  · rfl

/-- `ARM` succeeds on a clear direction that the configuration gate leaves open. -/
theorem armResult_clear {s : State} {e : EpNum} {d : Dir} {n : Nat} (h : s.clear e d)
    (hg : s.gated e = false) (hn : n ≤ s.cfg.mps e d) : armResult s e d n = .ok := by
  have hq := (State.quiet_iff s e d).1 h.2 _ (s.active_mem e d)
  simp [armResult, hg, h.1, hq.1, hq.2, Nat.not_lt.2 hn]

theorem armIn_clear {s : State} {e : EpNum} {d : Dir} {n : Nat} (a : Nat) (h : s.clear e d)
    (hg : s.gated e = false) (hn : n ≤ s.cfg.mps e d) : armIn s e d a n = armStore s e d a n := by
  simp [armIn, armResult_clear h hg hn]

/-- The direction after a successful arm. -/
theorem armStore_offers {s : State} {e : EpNum} {d : Dir} {n : Nat} (a : Nat) (h : s.clear e d) :
    Offers s (armStore s e d a n) e d a n := by
  unfold Offers
  rw [armStore_epDir, State.armToggle_quiet h.2]
  rw [State.pp_eq]
  cases s.cfg.pingpong e d <;> cases s.active e d <;>
    simp [EpDir.setBd, EpDir.setRearmed, EpDir.bd, EpDir.unread, EpDir.rearmed]

/-- A clear direction, armed. -/
theorem armIn_offers {s : State} {e : EpNum} {d : Dir} {n : Nat} (a : Nat) (h : s.clear e d)
    (hg : s.gated e = false) (hn : n ≤ s.cfg.mps e d) : Offers s (armIn s e d a n) e d a n := by
  rw [armIn_clear a h hg hn]; exact armStore_offers a h

@[simp] theorem Config.mps_zero (c : Config) (d : Dir) : c.mps 0 d = c.mps0 := rfl

theorem armEp0Out_eq (s : State) : armEp0Out s = armIn s 0 .out (s.nextBuf 0 .out) s.cfg.mps0 := rfl
theorem armEp0Zlp_eq (s : State) : armEp0Zlp s = armIn s 0 .inp (s.nextBuf 0 .inp) 0 := rfl

/-! ### cancel -/

theorem cancel_frame (s : State) (e : EpNum) (d : Dir) :
    cancel s e d = { s with eps := (cancel s e d).eps } := rfl

@[simp] theorem cancel_epDir (s : State) (e : EpNum) (d : Dir) :
    (cancel s e d).epDir e d = (s.epDir e d).cancel := State.onDir_epDir_same ..

theorem cancel_epDir_ne (s : State) (e : EpNum) (d : Dir) {e' : EpNum} {d' : Dir} (h : e' ≠ e ∨ d' ≠ d) :
    (cancel s e d).epDir e' d' = s.epDir e' d' := State.onDir_epDir_ne _ _ _ _ h

@[simp] theorem Desc.giveBack_owner (b : Desc) : b.giveBack.owner = .fw := by
  cases b with | mk a c o t st => cases o <;> simp [Desc.giveBack]
@[simp] theorem Desc.giveBack_addr (b : Desc) : b.giveBack.addr = b.addr := by
  unfold Desc.giveBack; split <;> rfl
@[simp] theorem Desc.giveBack_count (b : Desc) : b.giveBack.count = b.count := by
  unfold Desc.giveBack; split <;> rfl
@[simp] theorem Desc.giveBack_toggle (b : Desc) : b.giveBack.toggle = b.toggle := by
  unfold Desc.giveBack; split <;> rfl

@[simp] theorem EpDir.cancel_bd (x : EpDir) (j : Bool) : x.cancel.bd j = (x.bd j).giveBack := by
  cases j <;> rfl
@[simp] theorem EpDir.cancel_unread (x : EpDir) (j : Bool) : x.cancel.unread j = x.unread j := by
  cases j <;> rfl
@[simp] theorem EpDir.cancel_rearmed (x : EpDir) (j : Bool) : x.cancel.rearmed j = x.rearmed j := by
  cases j <;> rfl
@[simp] theorem EpDir.cancel_halted (x : EpDir) : x.cancel.halted = x.halted := rfl
@[simp] theorem EpDir.cancel_nextToggle (x : EpDir) : x.cancel.nextToggle = x.nextToggle := rfl
@[simp] theorem EpDir.cancel_activeIdx (x : EpDir) : x.cancel.activeIdx = x.hwIdx := rfl
@[simp] theorem EpDir.cancel_hwIdx (x : EpDir) : x.cancel.hwIdx = x.hwIdx := rfl
@[simp] theorem EpDir.cancel_rdIdx (x : EpDir) : x.cancel.rdIdx = x.rdIdx := rfl

/-! ### flush, and the restart of DEV_SET_CONFIG -/

theorem flush_frame (s : State) (e : EpNum) (d : Dir) : flush s e d =
    { s with eps := (flush s e d).eps, tcq := dropTc s.tcq e d } := by
  unfold flush
  dsimp only
  split <;> rfl

@[simp] theorem flush_cfg (s : State) (e : EpNum) (d : Dir) : (flush s e d).cfg = s.cfg := by rw [flush_frame]

/-- What `flush` leaves of its direction. -/
theorem flush_flushed (s : State) (e : EpNum) (d : Dir) : Flushed s (flush s e d) e d := by
  unfold Flushed flush
  cases h : (s.epDir e d).halted <;>
    simp [dropCompletions, h, EpDir.cancel, EpDir.bd, EpDir.unread, EpDir.rearmed]

@[simp] theorem EpDir.restart_bd (x : EpDir) (j : Bool) : x.restart.bd j = (x.bd j).giveBack := by cases j <;> rfl
@[simp] theorem EpDir.restart_unread (x : EpDir) (j : Bool) : x.restart.unread j = false := by cases j <;> rfl
@[simp] theorem EpDir.restart_rearmed (x : EpDir) (j : Bool) : x.restart.rearmed j = x.rearmed j := by
  cases j <;> rfl

theorem restartEndpoints_epDir (s : State) (e : EpNum) (d : Dir) : (restartEndpoints s).epDir e d =
    if e = 0 then s.epDir e d else (s.epDir e d).restart := by
  unfold restartEndpoints
  split <;> cases d <;> simp_all [State.epDir]

/-- What `DEV_SET_CONFIG` leaves of a direction above endpoint 0, before it offers bulk OUT. -/
theorem restartEndpoints_restarted (s : State) {e : EpNum} (h : e ≠ 0) (d : Dir) :
    Restarted s (restartEndpoints s) e d := by
  unfold Restarted
  rw [restartEndpoints_epDir, if_neg h]
  exact ⟨EpDir.restart_bd _, EpDir.restart_unread _, rfl, rfl, rfl, rfl, rfl, EpDir.restart_rearmed _⟩

/-! ### SET_HALT -/

theorem dropCompletions_frame (s : State) (e : EpNum) (d : Dir) : dropCompletions s e d =
    { s with eps := (dropCompletions s e d).eps, tcq := dropTc s.tcq e d } := rfl

theorem dropCompletions_epDir (s : State) (e : EpNum) (d : Dir) :
    (dropCompletions s e d).epDir e d = { s.epDir e d with unread0 := false, unread1 := false } := by
  simp [dropCompletions]

theorem dropCompletions_epDir_ne (s : State) (e : EpNum) (d : Dir) {e' : EpNum} {d' : Dir}
    (h : e' ≠ e ∨ d' ≠ d) : (dropCompletions s e d).epDir e' d' = s.epDir e' d' := by
  unfold dropCompletions
  rw [State.onDir_epDir_ne _ _ _ _ h]; simp

/-- The endpoint table and queue `SET_HALT` leaves when it has to halt. -/
def halted (s : State) (e : EpNum) (d : Dir) : State := haltStore (cancel (dropCompletions s e d) e d) e d

theorem halted_frame (s : State) (e : EpNum) (d : Dir) : halted s e d =
    { s with eps := (halted s e d).eps, tcq := dropTc s.tcq e d } := rfl

theorem halted_epDir_ne (s : State) (e : EpNum) (d : Dir) {e' : EpNum} {d' : Dir} (h : e' ≠ e ∨ d' ≠ d) :
    (halted s e d).epDir e' d' = s.epDir e' d' := by
  unfold halted haltStore
  rw [State.onDir_epDir_ne _ _ _ _ h, cancel_epDir_ne _ _ _ h, dropCompletions_epDir_ne _ _ _ h]

theorem halted_epDir (s : State) (e : EpNum) (d : Dir) : (halted s e d).epDir e d =
    (let k := s.hw e d
     let x := ({ ({ s.epDir e d with unread0 := false, unread1 := false } : EpDir).cancel with
       rdIdx := k }).setBd k ⟨s.cfg.epbuf e d k, s.cfg.mps e d, .hw, false, true⟩ |>.setRearmed k true
     { x with halted := true, activeIdx := if s.cfg.pingpong e d then k else x.activeIdx }) := by
  have hh : (cancel (dropCompletions s e d) e d).hw e d = s.hw e d := by
    simp [State.hw, dropCompletions_epDir]; simp [cancel, dropCompletions]
  unfold halted haltStore
  rw [State.onDir_epDir_same, hh, cancel_epDir, dropCompletions_epDir]
  rfl

theorem halted_halts (s : State) (e : EpNum) (d : Dir) : Halts s (halted s e d) e d := by
  unfold Halts
  rw [halted_epDir]
  have hk : s.cfg.pingpong e d = true → s.hw e d = (s.epDir e d).hwIdx := fun h => by simp [State.hw, State.pp, h]
  cases hp : s.cfg.pingpong e d
  · cases s.hw e d <;> refine ⟨rfl, rfl, rfl, rfl, ?_, rfl, rfl, rfl, rfl, rfl⟩ <;> intro j <;> cases j <;> rfl
  · have hh := hk hp
    cases h : s.hw e d <;> refine ⟨rfl, rfl, rfl, rfl, ?_, rfl, rfl, rfl, rfl, h.symm.trans hh⟩ <;>
      intro j <;> cases j <;> rfl

theorem setHaltStore_eq (s : State) (by_ : Caller) (e : EpNum) (d : Dir) : setHaltStore s by_ e d =
    if (s.epDir e d).halted then s
    else if by_ ≠ .msc ∧ s.isMsc e d then hostHalt (halted s e d) e d else halted s e d := rfl

/-- `SET_HALT` by the transport or the engine, of a direction that exists. -/
theorem setHaltIn_ok {s : State} {by_ : Caller} {e : EpNum} {d : Dir} (h : setHaltResult s by_ e d = .ok) :
    setHaltIn s by_ e d = setHaltStore s by_ e d := by simp [setHaltIn, h]

theorem setHaltResult_msc {s : State} {e : EpNum} (d : Dir) (he : e ≠ 0) (hn : e.val < s.cfg.nEp)
    (hc : s.configured = true) : setHaltResult s .msc e d = .ok := by
  simp [setHaltResult, Nat.not_le.2 hn, he, State.gated] at *
  exact hc

theorem setHaltResult_cte {s : State} (d : Dir) (hn : 1 ≤ s.cfg.nEp)
    (hm : s.isMsc 0 d = false) : setHaltResult s .cte 0 d = .ok := by
  have : ¬ s.cfg.nEp ≤ (0 : EpNum).val := by simp; omega
  simp only [setHaltResult, if_neg this]
  simp [hm]

/-- `SET_HALT` by the transport on a direction not yet halted. -/
theorem setHaltIn_msc {s : State} {e : EpNum} {d : Dir} (he : e ≠ 0) (hn : e.val < s.cfg.nEp)
    (hc : s.configured = true) (hh : (s.epDir e d).halted = false) :
    setHaltIn s .msc e d = halted s e d := by
  rw [setHaltIn_ok (setHaltResult_msc d he hn hc), setHaltStore_eq]
  simp [hh]

/-- `SET_HALT` by the engine on endpoint 0 not yet halted. -/
theorem setHaltIn_cte {s : State} {d : Dir} (hn : 1 ≤ s.cfg.nEp) (hm : s.isMsc 0 d = false)
    (hh : (s.epDir 0 d).halted = false) : setHaltIn s .cte 0 d = halted s 0 d := by
  rw [setHaltIn_ok (setHaltResult_cte d hn hm), setHaltStore_eq]
  simp [hh, hm]

/-! ### Consuming a completion -/

theorem consumed_frame (s : State) (t : Tc) (rest : List Tc) : consumed s t rest =
    { s with eps := (consumed s t rest).eps, tcq := rest } := rfl

theorem consumed_epDir_ne (s : State) (t : Tc) (rest : List Tc) {e : EpNum} {d : Dir}
    (h : e ≠ t.e ∨ d ≠ t.d) : (consumed s t rest).epDir e d = s.epDir e d := by
  unfold consumed; rw [State.onDir_epDir_ne _ _ _ _ h]; simp

theorem consumed_epDir (s : State) (t : Tc) (rest : List Tc) : (consumed s t rest).epDir t.e t.d =
    (let k := s.rd t.e t.d
     let x := { ((s.epDir t.e t.d).setUnread k false).setRearmed k false with
       nextToggle := toggleAfter t.pid (s.epDir t.e t.d).nextToggle }
     if s.cfg.pingpong t.e t.d then { x with rdIdx := !k } else x) := by
  unfold consumed
  rw [State.onDir_epDir_same]
  simp

/-- The direction after a consumed IN or OUT completion. -/
theorem consumed_readOnce (s : State) (t : Tc) (rest : List Tc) (h : t.pid ≠ .setup) :
    ReadOnce s (consumed s t rest) t.e t.d := by
  have ht : ∀ b, toggleAfter t.pid b = !b := by
    intro b; cases hp : t.pid <;> simp_all [toggleAfter]
  unfold ReadOnce
  rw [consumed_epDir, ht]
  cases s.cfg.pingpong t.e t.d <;> cases s.rd t.e t.d <;>
    simp [EpDir.setUnread, EpDir.setRearmed, EpDir.unread, EpDir.rearmed, EpDir.bd]

theorem ReadOnce.congr {s s' t t' : State} {e : EpNum} {d : Dir} (hc : s'.cfg = s.cfg)
    (hs : s'.epDir e d = s.epDir e d) (ht : t'.epDir e d = t.epDir e d) :
    ReadOnce s' t' e d ↔ ReadOnce s t e d := by
  have hr : s'.rd e d = s.rd e d := by simp [State.rd, hc, hs]
  simp [ReadOnce, hr, hs, ht, hc]

/-- Consuming the one outstanding completion leaves the direction clear. -/
theorem ReadOnce.clear {s u : State} {e : EpNum} {d : Dir} (hr : ReadOnce s u e d) (hc : u.cfg = s.cfg)
    (h : s.oneUnread e d) : u.clear e d := by
  obtain ⟨-, h2, h3, -, -, h4, -, -, -, h8⟩ := hr
  refine ⟨h8.trans h.1, ?_⟩
  rw [State.quiet_iff]
  intro j hj
  have hj' : j ∈ s.indices e d := by rwa [State.indices_congr hc] at hj
  obtain ⟨h5, h6⟩ := h.2 j hj'
  refine ⟨by rw [h4]; exact h5, ?_⟩
  by_cases hk : j = s.rd e d
  · rw [hk]; exact h2
  · have : j = !s.rd e d := by revert hk; cases j <;> cases s.rd e d <;> simp
    rw [this, h3, ← this]; exact h6 hk

theorem ReadOnce.active {s u : State} {e : EpNum} {d : Dir} (hr : ReadOnce s u e d) (hc : u.cfg = s.cfg) :
    u.active e d = s.active e d := by
  simp [State.active, hc, hr.2.2.2.2.2.2.2.2.1]

/-- Consuming, then offering. -/
theorem ReadOnce.offers {s u t : State} {e : EpNum} {d : Dir} {a n : Nat} (hr : ReadOnce s u e d)
    (hc : u.cfg = s.cfg) (ho : Offers u t e d a n) : ReadOnceThenOffers s t e d a n := by
  have ha := hr.active hc
  obtain ⟨h1, h2, h3, r1, r2, h4, h5, h6, h7, h8⟩ := hr
  obtain ⟨o1, o2, o3, o4, o5, o6, o7, o8, q1, q2, o9⟩ := ho
  simp only [ha] at *
  refine ⟨by rw [o1, h1], by rw [o2, h4], by rw [o4, h1], ?_, ?_, ?_, by rw [o6, h5], by rw [o5, h6],
    by rw [o9, hc, h7], by rw [o3, h8]⟩
  · have : ∀ j, (t.epDir e d).unread j = (u.epDir e d).unread j := by intro j; cases j <;> assumption
    rw [this, h2]
  · have : ∀ j, (t.epDir e d).unread j = (u.epDir e d).unread j := by intro j; cases j <;> assumption
    rw [this, h3]
  · intro j
    cases j <;> cases hk : s.active e d <;> cases hr : s.rd e d <;> simp_all

/-! ### What a good configuration gives -/

theorem Config.wf_nEp {c : Config} (h : c.wf = true) : 1 ≤ c.nEp := by
  simp only [Config.wf, Bool.and_eq_true, decide_eq_true_eq] at h
  obtain ⟨⟨⟨⟨⟨⟨⟨⟨⟨⟨⟨⟨⟨⟨⟨⟨⟨h1, -⟩, -⟩, -⟩, -⟩, -⟩, -⟩, -⟩, -⟩, -⟩, -⟩, -⟩, -⟩, -⟩, -⟩, -⟩, -⟩, -⟩ := h
  exact h1

theorem Config.wf_mscIn {c : Config} (h : c.wf = true) : c.mscIn ≠ 0 ∧ c.mscIn.val < c.nEp := by
  simp only [Config.wf, Bool.and_eq_true, decide_eq_true_eq] at h
  obtain ⟨⟨⟨⟨⟨⟨⟨⟨⟨⟨⟨⟨⟨⟨⟨⟨⟨-, -⟩, -⟩, -⟩, -⟩, h1⟩, h2⟩, -⟩, -⟩, -⟩, -⟩, -⟩, -⟩, -⟩, -⟩, -⟩, -⟩, -⟩ := h
  exact ⟨fun h0 => by rw [h0] at h1; simp at h1, h2⟩

theorem Config.wf_bulkSizes {c : Config} (h : c.wf = true) :
    31 ≤ c.mps c.mscOut .out ∧ 13 ≤ c.mps c.mscIn .inp := by
  simp only [Config.wf, Bool.and_eq_true, decide_eq_true_eq] at h
  obtain ⟨⟨⟨⟨⟨⟨⟨⟨⟨⟨⟨⟨⟨⟨⟨⟨⟨-, -⟩, -⟩, -⟩, -⟩, -⟩, -⟩, -⟩, -⟩, h1⟩, h2⟩, -⟩, -⟩, -⟩, -⟩, -⟩, -⟩, -⟩ := h
  exact ⟨h1, h2⟩

/-- Every packet size of an endpoint of the table fits ten bits. -/
theorem Config.wf_mps {c : Config} (h : c.wf = true) {e : EpNum} (he : e.val < c.nEp) (d : Dir) :
    c.mps e d ≤ 1023 := by
  simp only [Config.wf, Bool.and_eq_true, decide_eq_true_eq] at h
  obtain ⟨⟨⟨⟨⟨⟨⟨⟨⟨⟨⟨⟨⟨⟨⟨⟨⟨-, -⟩, -⟩, -⟩, h1⟩, -⟩, -⟩, -⟩, -⟩, -⟩, -⟩, -⟩, -⟩, -⟩, -⟩, -⟩, -⟩, -⟩ := h
  rw [List.all_eq_true] at h1
  have h2 := h1 e (List.mem_finRange e)
  rw [Bool.or_eq_true] at h2
  rcases h2 with h2 | h2
  · simp at h2; omega
  · rw [List.all_eq_true] at h2
    have h3 := h2 d (by cases d <;> simp)
    simp at h3; exact h3.2

/-- The INQUIRY data of a logical unit that exists are 36 bytes. -/
theorem Config.wf_inquiry {c : Config} (h : c.wf = true) (l : Lun) :
    (c.inquiry l).length = if l.val ≤ c.maxLun.val then 36 else 0 := by
  simp only [Config.wf, Bool.and_eq_true, decide_eq_true_eq] at h
  obtain ⟨⟨⟨⟨⟨⟨⟨⟨⟨⟨⟨⟨⟨⟨⟨⟨⟨-, -⟩, -⟩, -⟩, -⟩, -⟩, -⟩, -⟩, -⟩, -⟩, -⟩, -⟩, -⟩, h1⟩, h2⟩, -⟩, -⟩, -⟩ := h
  unfold Config.inquiry
  split
  · next hl =>
    have hlt : l.val < c.inquiryData.length := by omega
    rw [List.getD_eq_getElem _ _ hlt]
    rw [List.all_eq_true] at h2
    have := h2 _ (List.getElem_mem hlt)
    exact of_decide_eq_true this
  · next hl =>
    rw [List.getD_eq_default _ _ (by omega)]; rfl

theorem Config.wf_mscOut {c : Config} (h : c.wf = true) : c.mscOut ≠ 0 ∧ c.mscOut.val < c.nEp := by
  simp only [Config.wf, Bool.and_eq_true, decide_eq_true_eq] at h
  obtain ⟨⟨⟨⟨⟨⟨⟨⟨⟨⟨⟨⟨⟨⟨⟨⟨⟨-, -⟩, -⟩, -⟩, -⟩, -⟩, -⟩, h1⟩, h2⟩, -⟩, -⟩, -⟩, -⟩, -⟩, -⟩, -⟩, -⟩, -⟩ := h
  exact ⟨fun h0 => by rw [h0] at h1; simp at h1, h2⟩

/-! ### The end of a halt of endpoint 0 -/

theorem endEp0Halt_frame (s : State) (d : Dir) : endEp0Halt s d = { s with eps := (endEp0Halt s d).eps } := by
  unfold endEp0Halt
  split <;> rfl

/-- What it does to its direction: nothing to one that is not halted; a halted one keeps its descriptor, no longer
stalled, as an armed one. -/
theorem endEp0Halt_epDir (s : State) (d : Dir) : (endEp0Halt s d).epDir 0 d =
    if (s.epDir 0 d).halted then
      { (s.epDir 0 d).setBd (s.hw 0 d) { (s.epDir 0 d).bd (s.hw 0 d) with stall := false } with
        halted := false, activeIdx := if s.pp 0 d then !s.hw 0 d else (s.epDir 0 d).activeIdx }
    else s.epDir 0 d := by
  unfold endEp0Halt
  split <;> simp

theorem endEp0Halt_other (s : State) (d : Dir) {e' : EpNum} {d' : Dir} (h : e' ≠ 0 ∨ d' ≠ d) :
    (endEp0Halt s d).epDir e' d' = s.epDir e' d' := by
  unfold endEp0Halt
  split
  · exact State.onDir_epDir_ne s 0 d _ h
  · rfl

end Sys2Proof.Machine
end

