-- ==== Sys2Proof/Laws/Decode.lean ====
section
/-! SUPPORT. The readers of operands give back what the encoder wrote, whatever follows it; so a record is
decoded operand by operand. -/

namespace Sys2Proof

theorem readNat_natBytesFuel (fuel n : Nat) (h : n ≤ fuel) (r : List Byte) :
    readNat (natBytesFuel fuel n ++ r) = some (n, r) := by
  induction fuel generalizing n with
  | zero =>
    obtain rfl : n = 0 := by omega
    simp [natBytesFuel, readNat]
  | succ fuel ih =>
    unfold natBytesFuel
    split
    · next hn =>
      have : n % 256 = n := by omega
      simp [readNat, this, hn]
    · next hn =>
      have h1 : (n % 128 + 128) % 256 = n % 128 + 128 := by omega
      have h2 : ¬ n % 128 + 128 < 128 := by omega
      have h3 : n % 128 + 128 * (n / 128) = n := by omega
      simp only [List.cons_append, readNat, BitVec.toNat_ofNat, h1, if_neg h2, Nat.reducePow,
        ih _ (by omega : n / 128 ≤ fuel), Option.map_some]
      simp only [Option.some.injEq, Prod.mk.injEq, and_true]
      omega

/-- A natural number of any size is read back. -/
@[simp] theorem readNat_natBytes (n : Nat) (r : List Byte) : readNat (natBytes n ++ r) = some (n, r) :=
  readNat_natBytesFuel n n (Nat.le_refl n) r

@[simp] theorem readByte_cons (b : Byte) (r : List Byte) : readByte (b :: r) = some (b, r) := rfl

@[simp] theorem readAs_cons {α : Type} (f : Byte → Option α) (b : Byte) (r : List Byte) :
    readAs f (b :: r) = (f b).map fun y => (y, r) := rfl

@[simp] theorem readBytes_append (b r : List Byte) : readBytes b.length (b ++ r) = some (b, r) := by
  simp [readBytes]

/-- A bit of the byte `i` of a word. -/
theorem getLsbD_byte {w : Nat} (v : BitVec w) (i j : Nat) (h : j < 8) :
    (v.extractLsb' i 8).getLsbD j = v.getLsbD (i + j) := by simp [h]

@[simp] theorem le16At_le16 (v : BitVec 16) : le16At (le16 v) 0 = v := by
  apply BitVec.eq_of_getLsbD_eq
  intro i hi
  simp only [le16At, byteAt, le16, List.getD_cons_zero, List.getD_cons_succ, Nat.zero_add,
    BitVec.getLsbD_append]
  split
  · next h => rw [getLsbD_byte _ _ _ h, Nat.zero_add]
  · next h => rw [getLsbD_byte _ _ _ (by omega)]; congr 1; omega

@[simp] theorem le32At_le32 (v : BitVec 32) : le32At (le32 v) 0 = v := by
  apply BitVec.eq_of_getLsbD_eq
  intro i hi
  simp only [le32At, byteAt, le32, List.getD_cons_zero, List.getD_cons_succ, Nat.zero_add,
    BitVec.getLsbD_append]
  split
  · next h => rw [getLsbD_byte _ _ _ h, Nat.zero_add]
  · split
    · next h => rw [getLsbD_byte _ _ _ h]; congr 1; omega
    · split
      · next h => rw [getLsbD_byte _ _ _ h]; congr 1; omega
      · rw [getLsbD_byte _ _ _ (by omega)]; congr 1; omega

@[simp] theorem read16_le16 (v : BitVec 16) (r : List Byte) : read16 (le16 v ++ r) = some (v, r) := by
  have h : readBytes 2 (le16 v ++ r) = some (le16 v, r) := readBytes_append (le16 v) r
  simp only [read16, h, Option.map_some, Option.some.injEq, Prod.mk.injEq, and_true]
  exact le16At_le16 v

@[simp] theorem read32_le32 (v : BitVec 32) (r : List Byte) : read32 (le32 v ++ r) = some (v, r) := by
  have h : readBytes 4 (le32 v ++ r) = some (le32 v, r) := readBytes_append (le32 v) r
  simp only [read32, h, Option.map_some, Option.some.injEq, Prod.mk.injEq, and_true]
  exact le32At_le32 v

@[simp] theorem ending_nil (i : Instr) : ending i [] = some i := rfl

/-- Padding is ignored. -/
@[simp] theorem ending_padding (i : Instr) (n : Nat) : ending i (List.replicate n 0) = some i := by
  simp [ending]

@[simp] theorem tcOfByte_tcByte (t : Tc) (h : t.pid = .setup → t.e = 0) : tcOfByte (tcByte t) = some t := by
  obtain ⟨e, p⟩ := t
  cases p
  · revert e; decide
  · revert e; decide
  · obtain rfl : e = 0 := h rfl
    decide

@[simp] theorem epOfByte_epByte (e : EpNum) (d : Dir) : epOfByte (epByte e d) = some (e, d) := by
  cases d <;> revert e <;> decide

@[simp] theorem boolOfByte_boolByte (x : Bool) : boolOfByte (boolByte x) = some x := by cases x <;> decide

@[simp] theorem dirOfByte_dirByte (d : Dir) : dirOfByte (dirByte d) = some d := by cases d <;> decide

@[simp] theorem lunOfByte_ofNat (l : Lun) : lunOfByte (BitVec.ofNat 8 l.val) = some l := by
  revert l; decide

@[simp] theorem epNumOfByte_ofNat (e : EpNum) : epNumOfByte (BitVec.ofNat 8 e.val) = some e := by
  revert e; decide

@[simp] theorem hwOutOf_hwOutByte (e : EpNum) (t : Bool) (p : List Byte) :
    hwOutOf (hwOutByte e t) p = some (.hwOut e t p) := by
  have : ∀ (e : EpNum) (t : Bool), (hwOutByte e t).toNat / 16 % 8 = 0 ∧
      Fin.ofNat 16 (hwOutByte e t).toNat = e ∧ (hwOutByte e t).getLsbD 7 = t := by decide
  obtain ⟨h1, h2, h3⟩ := this e t
  simp only [hwOutOf, h1, h2, h3]

end Sys2Proof
end

