-- ==== Sys2Proof/Tests/Slice0.lean ====
section
/-! SUPPORT. Small tests of the model. Expected results come from the vectors of 95_test_vectors.md (named in
each comment) or from hand calculation with the tables of 30_encoding.md. The last part gives, for every
statement with hypotheses, a state and operands that meet them. -/

namespace Sys2Proof.Tests

open Sys2Proof.Machine

/-! ### Helpers -/

/-- The rule answers a next state of which `p` is true. -/
def next (r : Res) (p : State → Bool) : Bool :=
  match r with
  | .next s => p s
  | .fault _ => false
  | .refused _ => false

/-- The rule is refused for the reason given. -/
def refusedAs (r : Res) (x : Refusal) : Bool :=
  match r with
  | .next _ => false
  | .fault _ => false
  | .refused y => y == x

/-- The command returns `c` and changes nothing else. -/
def rejects (i : Instr) (s : State) (c : ResultCode) : Bool :=
  next (exec i s) fun t => t == s.answer (.code c)

/-- The control word of descriptor 0 of a direction. -/
def ctl (s : State) (e : EpNum) (d : Dir) : BitVec 16 := bdCtl ((s.epDir e d).bd false)

/-- `S0` of 95_test_vectors.md. -/
def s0 : State := State.reset

/-- The driver of 95_test_vectors.md: ready, 1000 blocks of 512 bytes, a write buffer of 512 bytes at
0x2000, callback 9. -/
def drv0 : DrvAnswers := ⟨512, 1000, false, true, true, true, true, 0x2000, 512, 9⟩

/-- `S1` of 95_test_vectors.md. -/
def s1 : State :=
  let s := s0.onDir 0 .out fun x => { x with nextToggle := true, bd0 := ⟨0, 8, .hw, true, false⟩ }
  let s := s.onDir 0 .inp fun x => { x with bd0 := ⟨8, 0, .fw, true, false⟩ }
  let s := s.onDir 1 .out fun x => { x with bd0 := ⟨0x40, 64, .hw, false, false⟩ }
  (s.setDev { s.dev with configurationValue := 1 }).setDrv 0 drv0

/-- A state with a SETUP packet waiting for its disposition. -/
def afterSetup (s : State) (b : List Byte) : State :=
  let p := SetupPacket.parse b
  let s := s.onDir 0 .out fun x => { x with nextToggle := true, bd0 := ⟨0, 8, .fw, false, false⟩ }
  let s := s.onDir 0 .inp fun x => { x with nextToggle := true }
  ((((s.setSetup p).setCs { Session.none with valid := true, direction := setupDirection p }).setCte
    .setupReceived).setHold true)

/-- Bytes placed in buffer memory. -/
def put (s : State) (a : Nat) (b : List Byte) : State := s.setMem (Memory.writeBytes s.mem a b)

/-- The completion of a packet of `b` bytes, waiting at the head of `TCQ`. -/
def received (s : State) (e : EpNum) (p : Pid) (addr : Nat) (b : List Byte) : State :=
  (put (s.onDir e p.dir fun x => { x with bd0 := ⟨addr, b.length, .fw, x.bd0.toggle, false⟩, unread0 := true })
    addr b).setTcq [⟨e, p⟩]

/-- The completion of an IN packet, waiting at the head of `TCQ`. -/
def sent (s : State) (e : EpNum) (addr n : Nat) : State :=
  (s.onDir e .inp fun x => { x with bd0 := ⟨addr, n, .fw, x.bd0.toggle, false⟩, unread0 := true }).setTcq
    [⟨e, .inp⟩]

/-- A CBW with tag 0x11223344, for LUN 0. -/
def cbw (length : BitVec 32) (flags len : Byte) (cb : List Byte) : Cbw :=
  ⟨0x43425355, 0x11223344, length, flags, 0, len, bytes16At cb 0⟩

/-- `S1` with the bytes of a CBW consumed next. -/
def withCbw (b : List Byte) : State := received s1 1 .out 0x40 b

/-- `S1` with the transport's registers changed. -/
def s1msc (m : Msc) : State := s1.setMsc m

/-- A CBW whose command is INQUIRY. -/
def inq : List Byte := [0x12, 0, 0, 0, 0x24, 0]

/-! ### Well-formed instructions: each check refuses an ill-formed one -/

theorem test_wf_evTc : WellFormed Config.cfg1 (.evTc ⟨1, .setup⟩) = false := by decide
theorem test_wf_arm : WellFormed Config.cfg1 (.arm 2 .inp 0 0) = false ∧
    WellFormed Config.cfg1 (.arm 1 .inp 0x10000 0) = false ∧
    WellFormed Config.cfg1 (.arm 1 .inp 0xFFFF (2 ^ 40)) = true := by decide
theorem test_wf_controlReturn : WellFormed Config.cfg1 (.startControlReturn 0x10000 0 0) = false ∧
    WellFormed Config.cfg1 (.startControlReturn 0 (2 ^ 40) (2 ^ 40)) = true := by decide
theorem test_wf_receive : WellFormed Config.cfg1 (.startReceive 0x10000 0 0) = false ∧
    WellFormed Config.cfg1 (.startReceive 0 0 65536) = false := by decide
/-- The widths are the configuration's: with `CB_W = 40` a callback of 33 bits is legal. -/
theorem test_wf_accept : WellFormed Config.cfg1 (.accept (some 65536)) = false ∧
    WellFormed { Config.cfg1 with cbW := 40 } (.accept (some (2 ^ 32))) = true := by decide
theorem test_wf_blockReady : WellFormed Config.cfg1 (.evBlockReady 0x10000 1) = false := by decide
theorem test_wf_completion : WellFormed Config.cfg1 (.completion 65536 true) = false := by decide
theorem test_wf_startWrite : WellFormed Config.cfg1 (.drvStartWrite 0 0 1 true 0x10000 0 0) = false ∧
    WellFormed Config.cfg1 (.drvStartWrite 0 0 1 true 0 (2 ^ 32) 0) = false ∧
    WellFormed Config.cfg1 (.drvStartWrite 0 0 1 true 0 0 65536) = false := by decide
theorem test_wf_writeBuffer : WellFormed Config.cfg1 (.drvWriteBuffer 65536 true 0) = false := by decide
theorem test_wf_extTc : WellFormed Config.cfg1 (.extTc 0 .inp) = false ∧
    WellFormed Config.cfg1 (.extTc 1 .out) = false ∧ WellFormed Config.cfg1 (.extTc 1 .inp) = false ∧
    WellFormed Config.cfg1 (.extTc 2 .inp) = true := by decide
theorem test_wf_request :
    WellFormed Config.cfg1 (.setup .request (SetupPacket.parse [0x21, 0xFF, 0, 0, 0, 0, 0, 0])) = false := by
  decide
/-- A command outside `SCSI_SET` is unknown. -/
theorem test_wf_scsi : WellFormed Config.cfg1 (.scsiUnknown 0x28) = false ∧
    WellFormed { Config.cfg1 with scsiSet := [(0x00, .testUnitReady)] } (.scsiUnknown 0x28) = true ∧
    WellFormed { Config.cfg1 with scsiSet := [(0x00, .testUnitReady)] } (.read10 0 0) = false := by decide
theorem test_wf_bd : WellFormed Config.cfg1 (.bdArmed 1 .inp true false 1) = false ∧
    WellFormed Config.cfg1 (.bdStalled 2 .inp false 1) = false ∧
    WellFormed Config.cfg1 (.bdReturned 1 .out true false 1) = false := by decide

/-! ### Decoding: every constructor, from bytes written out by hand -/

theorem test_decode_op_events : decode Config.cfg1 ⟨.op, [0x01, 0x04]⟩ = some (.evTc ⟨0, .setup⟩) ∧
    decode Config.cfg1 ⟨.op, [0x02]⟩ = some .busReset ∧
    decode Config.cfg1 ⟨.op, [0x10, 0x81, 0x80, 1, 0x0D]⟩ = some (.arm 1 .inp 0x80 13) ∧
    decode Config.cfg1 ⟨.op, [0x11, 1, 0]⟩ = some (.queryLen 1 .out) ∧
    decode Config.cfg1 ⟨.op, [0x12, 1, 1]⟩ = some (.setHalt 1 .inp) ∧
    decode Config.cfg1 ⟨.op, [0x13, 0x85, 2, 0]⟩ = some (.clearHalt 261 .out) ∧
    decode Config.cfg1 ⟨.op, [0x14]⟩ = some .epInit ∧ decode Config.cfg1 ⟨.op, [0x15]⟩ = some .critEnter ∧
    decode Config.cfg1 ⟨.op, [0x16]⟩ = some .critExit := by decide
theorem test_decode_op_engine :
    decode Config.cfg1 ⟨.op, [0x20, 0x80, 2, 18, 64]⟩ =
      some (.startControlReturn 0x100 18 64) ∧
    decode Config.cfg1 ⟨.op, [0x20, 0, 0x80, 0x80, 0x80, 0x80, 0x80, 1, 0]⟩ =
      some (.startControlReturn 0 (2 ^ 35) 0) ∧
    decode Config.cfg1 ⟨.op, [0x21, 0x80, 4, 10, 7]⟩ = some (.startReceive 0x200 10 7) ∧
    decode Config.cfg1 ⟨.op, [0x22, 0]⟩ = some (.accept none) ∧
    decode Config.cfg1 ⟨.op, [0x22, 1, 4]⟩ = some (.accept (some 4)) ∧
    decode Config.cfg1 ⟨.op, [0x23]⟩ = some .reject ∧
    decode Config.cfg1 ⟨.op, [0x30, 7]⟩ = some (.devSetAddress 7) ∧
    decode Config.cfg1 ⟨.op, [0x30, 0x80, 2]⟩ = some (.devSetAddress 256) ∧
    decode Config.cfg1 ⟨.op, [0x31, 1]⟩ = some (.devSetConfig 1) ∧
    decode Config.cfg1 ⟨.op, [0x40]⟩ = some .stackInit := by decide
theorem test_decode_op_transport :
    decode Config.cfg1 ⟨.op, [0x50, 0x80, 0x20, 0x80, 4]⟩ = some (.evBlockReady 0x1000 512) ∧
    decode Config.cfg1 ⟨.op, [0x51, 1]⟩ = some (.evReadComplete true) ∧
    decode Config.cfg1 ⟨.op, [0x52]⟩ = some .evWriteDataHandled ∧
    decode Config.cfg1 ⟨.op, [0x53, 0]⟩ = some (.evWriteComplete false) ∧
    decode Config.cfg1 ⟨.op, [0x54]⟩ = some .mscReset ∧
    decode Config.cfg1 ⟨.op, [0x55, 1]⟩ = some (.mscHaltCleared .inp) := by decide
theorem test_decode_op_outputs :
    decode Config.cfg1 ⟨.op, [0x80, 0, 5, 7, 0, 0, 0, 0, 0]⟩ = some (.setupRequest ⟨0, 5, 7, 0, 0⟩) ∧
    decode Config.cfg1 ⟨.op, [0x81, 7, 1]⟩ = some (.completion 7 true) ∧
    decode Config.cfg1 ⟨.op, [0x82, 7]⟩ = some (.setDeviceAddress 7) ∧
    decode Config.cfg1 ⟨.op, [0x90, 0, 0, 2, 0, 0, 0xE8, 7, 0]⟩ = some (.drvGetInfo 0 512 1000 false) ∧
    decode Config.cfg1 ⟨.op, [0x91, 15, 1]⟩ = some (.drvUnitReady 15 true) ∧
    decode Config.cfg1 ⟨.op, [0x92, 0, 1, 0, 1]⟩ = some (.drvStartStop 0 true false true) ∧
    decode Config.cfg1 ⟨.op, [0x95, 1]⟩ = some (.drvBlockSent true) ∧
    decode Config.cfg1 ⟨.op, [0x96, 9, 1, 0x80, 4]⟩ = some (.drvWriteBuffer 9 true 512) := by
  decide
theorem test_decode_op_starts :
    decode Config.cfg1 ⟨.op, [0x93, 0, 4, 3, 2, 1, 4, 0, 1]⟩ = some (.drvStartRead 0 0x01020304 4 true) ∧
    decode Config.cfg1 ⟨.op, [0x94, 0, 8, 0, 0, 0, 2, 0, 1, 0x80, 0x40, 0x80, 4, 9]⟩ =
      some (.drvStartWrite 0 8 2 true 0x2000 512 9) := by decide
theorem test_decode_op_channel :
    decode Config.cfg1 ⟨.op, [0xE0, 0x81, 2, 0xAA, 0xBB]⟩ = some (.hwOut 1 true [0xAA, 0xBB]) ∧
    decode Config.cfg1 ⟨.op, [0xE0, 0x20, 1, 0x80]⟩ = some (.hwSetup [0x80]) ∧
    decode Config.cfg1 ⟨.op, [0xE1, 1]⟩ = some (.hwIn 1) := by decide
/-- V30-14. -/
theorem test_decode_tc : decode Config.cfg1 ⟨.tc, [0x04]⟩ = some .cteSetup ∧
    decode Config.cfg1 ⟨.tc, [0x00]⟩ = some .cteOut ∧ decode Config.cfg1 ⟨.tc, [0x0A]⟩ = some .cteIn ∧
    decode Config.cfg1 ⟨.tc, [0x10]⟩ = some .mscOut ∧ decode Config.cfg1 ⟨.tc, [0x1A]⟩ = some .mscIn ∧
    decode Config.cfg1 ⟨.tc, [0x2A]⟩ = some (.extTc 2 .inp) := by decide
/-- V30-15, and reserved operation codes: refused. -/
theorem test_decode_refuses : decode Config.cfg1 ⟨.tc, [0x14]⟩ = none ∧
    decode Config.cfg1 ⟨.tc, [0x0C]⟩ = none ∧ decode Config.cfg1 ⟨.tc, [0x01]⟩ = none ∧
    decode Config.cfg1 ⟨.op, [0x03]⟩ = none ∧ decode Config.cfg1 ⟨.op, [0xFF]⟩ = none ∧
    decode Config.cfg1 ⟨.op, []⟩ = none ∧ decode Config.cfg1 ⟨.bdctl, [0x08, 0x24, 1, 0]⟩ = none ∧
    decode Config.cfg1 ⟨.csw13, [0x55, 0x53, 0x42, 0x43, 0, 0, 0, 0, 0, 0, 0, 0, 0]⟩ = none := by decide
/-- V30-1, V30-2 and the rows of 42_request_dispatch.md R150. -/
theorem test_decode_setup :
    decode Config.cfg1 ⟨.setupWire, [0x80, 6, 0, 1, 0, 0, 0x40, 0]⟩ =
      some (.setup .wire ⟨0x80, 6, 0x0100, 0, 64⟩) ∧
    decode Config.cfg1 ⟨.setupRequest, [0x80, 6, 2, 3, 9, 4, 0x40, 0]⟩ =
      some (.getDescriptor 3 2 0x0409 64) ∧
    decode Config.cfg1 ⟨.setupRequest, [0, 5, 7, 0, 0, 0, 0, 0]⟩ = some (.setAddress 7 0) ∧
    decode Config.cfg1 ⟨.setupRequest, [0, 9, 1, 0, 0, 0, 0, 0]⟩ = some (.setConfiguration 1 0) ∧
    decode Config.cfg1 ⟨.setupRequest, [2, 1, 0, 0, 0x81, 0, 0, 0]⟩ =
      some (.clearFeatureEndpointHalt 0x81) ∧
    decode Config.cfg1 ⟨.setupRequest, [2, 3, 0, 0, 1, 0, 0, 0]⟩ = some (.setFeatureEndpointHalt 1) ∧
    decode Config.cfg1 ⟨.setupRequest, [0x21, 0xFF, 0, 0, 0, 0, 0, 0]⟩ = some .bulkOnlyMassStorageReset ∧
    decode Config.cfg1 ⟨.setupRequest, [0xA1, 0xFE, 0, 0, 0, 0, 1, 0]⟩ = some (.getMaxLun 0) ∧
    decode Config.cfg1 ⟨.setupRequest, [0x40, 1, 0, 0, 0, 0, 10, 0]⟩ =
      some (.setup .request ⟨0x40, 1, 0, 0, 10⟩) := by decide
/-- The 31 bytes of V30-3. -/
def v30_3 : List Byte := [0x55, 0x53, 0x42, 0x43, 0x44, 0x33, 0x22, 0x11, 0, 2, 0, 0, 0x80, 0, 6,
  0x12, 0, 0, 0, 0x24, 0, 0, 0, 0, 0, 0, 0, 0, 0, 0, 0]
/-- V30-3; and a bulk OUT packet that is too short for a CBW is the same row (R92). -/
theorem test_decode_cbw : decode Config.cfg1 ⟨.cbw31, v30_3⟩ = some (.cbw v30_3) ∧
    Cbw.parse v30_3 = cbw 512 0x80 6 inq ∧ (cbw 512 0x80 6 inq).bytes = v30_3 ∧
    decode Config.cfg1 ⟨.cbw31, [1, 2]⟩ = some (.cbw [1, 2]) := by decide
/-- V30-8, V30-9. -/
theorem test_decode_csw :
    decode Config.cfg1 ⟨.csw13, [0x55, 0x53, 0x42, 0x53, 0x44, 0x33, 0x22, 0x11, 0xDC, 1, 0, 0, 0]⟩ =
      some (.csw 0x11223344 476 0) ∧
    cswBytes 0xFFFFFFFF 0x01020304 2 =
      [0x55, 0x53, 0x42, 0x53, 0xFF, 0xFF, 0xFF, 0xFF, 4, 3, 2, 1, 2] := by decide
/-- V30-10 and the operation codes of 30_encoding.md R86. -/
theorem test_decode_cdb : decode Config.cfg1 ⟨.cdb, [0, 0, 0, 0, 0, 0]⟩ = some .testUnitReady ∧
    decode Config.cfg1 ⟨.cdb, [3, 0, 0, 0, 18, 0]⟩ = some .requestSense ∧
    decode Config.cfg1 ⟨.cdb, [0x12, 0, 0, 0, 0x24, 0]⟩ = some .inquiry ∧
    decode Config.cfg1 ⟨.cdb, [0x1A, 0, 0x3F, 0, 4, 0]⟩ = some .modeSense6 ∧
    decode Config.cfg1 ⟨.cdb, [0x1B, 0, 0, 0, 2, 0]⟩ = some (.startStopUnit false true) ∧
    decode Config.cfg1 ⟨.cdb, [0x25, 0, 0, 0, 0, 0, 0, 0, 0, 0]⟩ = some .readCapacity10 ∧
    decode Config.cfg1 ⟨.cdb, [0x28, 0, 0, 0, 1, 0, 0, 0, 4, 0]⟩ = some (.read10 256 4) ∧
    decode Config.cfg1 ⟨.cdb, [0x2A, 0, 0, 0, 0, 8, 0, 0, 2, 0]⟩ = some (.write10 8 2) ∧
    decode Config.cfg1 ⟨.cdb, [0xA0, 0, 0, 0, 0, 0]⟩ = some (.scsiUnknown 0xA0) := by decide
/-- V30-11 to V30-13. -/
theorem test_decode_bdctl :
    decode Config.cfg1 ⟨.bdctl, [0x08, 0xC0, 0x80, 0]⟩ = some (.bdArmed 0 .inp false true 8) ∧
    decode Config.cfg1 ⟨.bdctl, [0x40, 0xA0, 0x81, 0]⟩ = some (.bdStalled 1 .inp false 64) ∧
    decode Config.cfg1 ⟨.bdctl, [0x1F, 0x40, 0x01, 0]⟩ = some (.bdReturned 1 .out false true 31) ∧
    decode Config.cfg1 ⟨.bdctl, [0x08, 0xDC, 0x80, 0]⟩ = some (.bdArmed 0 .inp false true 8) ∧
    decode Config.cfg1 ⟨.bdctl, [0x40, 0xE0, 0x81, 0]⟩ = none ∧
    decode Config.cfg1 ⟨.bdctl, [0x40, 0x20, 0x81, 0]⟩ = none ∧
    bdCtl ⟨0x0008, 8, .hw, true, false⟩ = 0xC008 ∧ bdCtl ⟨0x80, 64, .hw, false, true⟩ = 0xA040 ∧
    bdCtl ⟨0x40, 31, .fw, true, false⟩ = 0x401F := by decide
/-- Words as the opcode table numbers them, and the step that runs one after reset. -/
theorem test_table_words : decodeTableWord 8 0x54 = some .mscReset ∧
    decodeTableWord 8 0x1A = some .mscIn ∧ decodeTableWord 16 0xC008 = some (.bdArmed 0 .out false true 8) ∧
    decodeTableWord 64 0xFF21 = some .bulkOnlyMassStorageReset := by decide
theorem test_step_runs_word : next (step (s0.withFetchWord 8 0x15)) (fun t => !t.tcIrqEn) = true := by decide
/-- The head of the inputs is not an instruction: refused. -/
theorem test_step_refuses_record :
    refusedAs (step (s0.setInputs [.record ⟨.op, [0xFF]⟩])) .illegalRecord = true := by decide
/-- U1: the environment writes to its own buffers, not to a packet buffer. -/
theorem test_step_env_write :
    next (step (s0.setInputs [.memWrite 0x100 [1, 2]])) (fun t => t.bytes 0x100 2 == [1, 2]) = true ∧
    refusedAs (step (s0.setInputs [.memWrite 0x7F [1, 2]])) .foreignBufferWrite = true := by decide

/-- 30_encoding.md R82: the sub-fields of a SETUP packet. -/
theorem test_setup_subfields : wIndexInterface 0x1203 = 0x03 ∧ wIndexEp 0x0081 = 1 ∧ wIndexDir 0x0081 = .inp ∧
    setupRequestType ⟨0xA1, 0xFE, 0, 0, 1⟩ = 1 ∧ setupRecipient ⟨0xA1, 0xFE, 0, 0, 1⟩ = 1 := by decide
/-- 00_scope.md R7: `SCSI_SET` and `REQ` are parameters. -/
theorem test_parameter_tables :
    let c := { Config.cfg1 with scsiSet := [(0xC0, .read10)], req := { defaultReq with getMaxLun := ⟨0xC1, 1⟩ } }
    c.wf = true ∧ decode c ⟨.cdb, [0xC0, 0, 0, 0, 0, 8, 0, 0, 2, 0]⟩ = some (.read10 8 2) ∧
    decode c ⟨.cdb, [0x28]⟩ = some (.scsiUnknown 0x28) ∧
    decode c ⟨.setupRequest, [0xC1, 1, 0, 0, 0, 0, 1, 0]⟩ = some (.getMaxLun 0) := by decide

/-! ### The arbiter -/

/-- V40-1, V40-2. -/
theorem test_arm : next (exec (.arm 0 .inp 8 8) (afterSetup s0 [0x80])) (fun t => ctl t 0 .inp == 0xC008) ∧
    rejects (.arm 0 .inp 8 9) (afterSetup s0 [0x80]) .errArg = true := by decide
/-- V40-3, V40-4. -/
theorem test_arm_refused : rejects (.arm 1 .inp 0x80 13) s0 .errNotConfigured = true ∧
    rejects (.arm 0 .out 0 8) s0 .errOwner = true := by decide
/-- V40-10: the count of the descriptor consumed last. -/
theorem test_queryLen : next (exec (.queryLen 1 .out)
    (s1.onDir 1 .out fun x => { x with bd0 := ⟨0x40, 31, .fw, false, false⟩ }))
    (fun t => t.reply == some (.length 31)) = true := by decide
/-- V40-7. -/
theorem test_setHalt : next (exec (.setHalt 1 .inp) s1)
    (fun t => ctl t 1 .inp == 0xA040 && (t.epDir 1 .inp).halted && t.msc == s1.msc) = true := by decide
/-- V40-11, V40-12. -/
theorem test_setHalt_arg : rejects (.setHalt 0 .inp) s1 .errArg = true ∧
    rejects (.setHalt 5 .inp) s1 .errArg = true ∧ rejects (.setHalt 17 .inp) s1 .errArg = true := by decide
/-- `S1` after V40-7. -/
def s1halted : State := s1.onDir 1 .inp fun x => { x with halted := true, nextToggle := true
                                                          bd0 := ⟨0x80, 64, .hw, false, true⟩ }
/-- V40-8. -/
theorem test_clearHalt : next (exec (.clearHalt 1 .inp) s1halted) (fun t =>
    ctl t 1 .inp == 0x0040 && !(t.epDir 1 .inp).halted && !(t.epDir 1 .inp).nextToggle) = true := by decide
/-- V40-9. -/
theorem test_clearHalt_unhalted : rejects (.clearHalt 1 .out)
    (s1.onDir 1 .out fun x => { x with nextToggle := true }) .ok = true := by decide
theorem test_epInit : next (exec .epInit s1halted) (fun t =>
    ctl t 0 .out == 0x8008 && ctl t 1 .inp == 0x0040 && ctl t 1 .out == 0x0040 &&
      !(t.epDir 1 .inp).halted) = true := by decide
/-- V60-8: the closed mask keeps a completion waiting. -/
theorem test_critEnter : next (exec .critEnter s1) (fun t => !t.tcIrqEn) = true ∧
    next (exec (.evTc ⟨1, .out⟩) ((withCbw []).setIrq false))
      (fun t => t.tcq == [⟨1, .out⟩]) = true := by decide
theorem test_critExit : next (exec .critExit (s1.setIrq false)) (fun t => t.tcIrqEn) = true := by decide
theorem test_bdArmed : next (exec (.bdArmed 1 .inp false false 13) s1) (fun t => ctl t 1 .inp == 0x800D) ∧
    rejects (.bdArmed 1 .inp false true 13) s1 .errArg = true ∧
    rejects (.bdArmed 1 .out false true 13) s1 .errOwner = true := by decide
theorem test_bdStalled :
    next (exec (.bdStalled 1 .inp false 64) s1) (fun t => ctl t 1 .inp == 0xA040 && (t.epDir 1 .inp).halted) = true ∧
    rejects (.bdStalled 1 .inp false 63) s1 .errArg = true := by decide
/-- The channel returns the descriptor it has, with its toggle, and nothing else. -/
theorem test_bdReturned :
    next (exec (.bdReturned 1 .out false false 31) s1) (fun t => ctl t 1 .out == 0x001F && t.tcq == [⟨1, .out⟩])
      = true ∧
    next (exec (.bdReturned 1 .out false true 31) s1) (fun t => t == s1) = true := by decide
/-- R106: a descriptor armed since its completion was consumed and then withdrawn has no length to return. -/
theorem test_queryLen_rearmed : next (exec (.arm 1 .inp 0x80 13) s1) (fun a =>
    next (exec (.setHalt 1 .inp) a) fun b => next (exec (.clearHalt 1 .inp) b) fun c =>
      ctl c 1 .inp == 0x0040 && rejects (.queryLen 1 .inp) c .errOwner) = true := by decide

/-! ### The Control Transfer Engine -/

/-- Program P1, steps 3 and the engine's registers after it. -/
theorem test_startControlReturn : next (exec (.startControlReturn 0x100 18 64)
    (put (afterSetup s0 [0x80, 6, 0, 1, 0, 0, 0x40, 0]) 0x100 [1, 2, 3, 4, 5, 6, 7, 8, 9])) (fun t =>
    t.cteState == .dataIn && ctl t 0 .inp == 0xC008 && ctl t 0 .out == 0xC008 && t.cs.cursor == 0x108 &&
      t.cs.remaining == 10 && t.cs.returningShort && t.bytes 8 8 == [1, 2, 3, 4, 5, 6, 7, 8]) = true := by decide
/-- V41-21, V41-25. -/
theorem test_startControlReturn_refused : rejects (.startControlReturn 0x100 18 64) s0 .errState = true ∧
    rejects (.startControlReturn 0x100 18 70000) (afterSetup s0 [0x80, 6]) .errArg = true := by decide
/-- Program P3, step 2. -/
theorem test_startReceive : next (exec (.startReceive 0x200 10 7) (afterSetup s0 [0x40, 1, 0, 0, 0, 0, 10, 0]))
    (fun t => t.cteState == .dataOut && ctl t 0 .out == 0xC008 && t.cs.remaining == 10 && t.cs.cbValid &&
      t.cs.cbId == 7 && !t.ep0Hold) = true := by decide
/-- V41-24. -/
theorem test_startReceive_nothing : next (exec (.startReceive 0x200 0 4) (afterSetup s0 [0x40, 1]))
    (fun t => t.cteState == .status && ctl t 0 .inp == 0xC000) = true := by decide
/-- Program P8a, step 3; V41-20. -/
theorem test_accept : next (exec (.accept none) (afterSetup s0 [0, 5, 7, 0, 0, 0, 0, 0])) (fun t =>
    t.cteState == .status && ctl t 0 .inp == 0xC000 && ctl t 0 .out == 0xC008 && !t.ep0Hold) = true ∧
    rejects (.accept none) s0 .errState = true := by decide
/-- V41-15, V41-16. -/
theorem test_reject : next (exec .reject (afterSetup s0 [0x80, 6, 0, 3, 0, 0, 0x40, 0])) (fun t =>
    ctl t 0 .inp == 0xA008 && ctl t 0 .out == 0xC008 && t.cteState == .idle) = true ∧
    next (exec .reject (afterSetup s0 [0x40, 1, 0, 0, 0, 0, 10, 0])) (fun t =>
      ctl t 0 .inp == 0xA008 && ctl t 0 .out == 0xA008 && t.cteState == .idle) = true := by decide
/-- Program P1, step 2. -/
theorem test_cteSetup : next (exec .cteSetup (received s0 0 .setup 0 [0x80, 6, 0, 1, 0, 0, 0x40, 0]))
    (fun t => t.cteState == .setupReceived && t.setup.wLength == 64 && t.cs.direction == .inp &&
      (t.epDir 0 .inp).nextToggle && (t.epDir 0 .out).nextToggle && t.tcq == [] &&
      t.outputs == [.setupRequest ⟨0x80, 6, 0x100, 0, 64⟩]) = true := by decide
/-- V41-18: a SETUP of 7 bytes. -/
theorem test_cteSetup_short : next (exec .cteSetup ((received s0 0 .setup 0 [0x80, 6, 0, 1, 0, 0, 0x40]).setHold
    true)) (fun t => t.cteState == .idle && ctl t 0 .inp == 0xA008 && ctl t 0 .out == 0xA008 && t.outputs == [] &&
      !t.ep0Hold) = true := by decide
/-- P3 at the point where its first data packet has been received. -/
def p3 (b : List Byte) (remaining : Nat) : State :=
  let s := received s0 0 .out 0 b
  ((s.setCte .dataOut).setCs ⟨true, .out, remaining, 0x200, true, 7, false, false, 0⟩).onDir 0 .out fun x =>
    { x with nextToggle := true }
/-- Program P3, step 3. -/
theorem test_cteOut_data : next (exec .cteOut (p3 [0xA0, 0xA1, 0xA2, 0xA3, 0xA4, 0xA5, 0xA6, 0xA7] 10)) (fun t =>
    t.bytes 0x200 8 == [0xA0, 0xA1, 0xA2, 0xA3, 0xA4, 0xA5, 0xA6, 0xA7] && t.cs.remaining == 2 &&
      t.cs.cursor == 0x208 && ctl t 0 .out == 0x8008 && t.cteState == .dataOut) = true := by decide
/-- V41-11: a packet that does not fit. -/
theorem test_cteOut_oversize : next (exec .cteOut (p3 [1, 2, 3] 2)) (fun t =>
    t.cteState == .idle && t.outputs == [.completion 7 false] && ctl t 0 .inp == 0xA008 &&
      ctl t 0 .out == 0xA008 && t.bytes 0x200 3 == [0, 0, 0]) = true := by decide
/-- Program P1, step 4. -/
theorem test_cteIn : next (exec .cteIn (((put (sent s0 0 8 8) 0x108 [9, 10, 11, 12, 13, 14, 15, 16]).setCte
    .dataIn).setCs ⟨true, .inp, 10, 0x108, false, 0, false, true, 8⟩)) (fun t =>
    t.cs.remaining == 2 && t.cs.cursor == 0x110 && t.bytes 8 8 == [9, 10, 11, 12, 13, 14, 15, 16] &&
      (t.epDir 0 .inp).nextToggle && ctl t 0 .inp == 0xC008) = true := by decide
/-- Program P8a, step 4. -/
theorem test_cteIn_status : next (exec .cteIn (((sent s0 0 8 0).setCte .status).setDev ⟨0, true, 7, 0⟩)) (fun t =>
    t.cteState == .idle && t.dev.address == 7 && !t.dev.pendingValid &&
      t.outputs == [.setDeviceAddress 7]) = true := by decide

/-! ### Device state and resets -/

/-- V42-4; program P8a, step 2. -/
theorem test_devSetAddress : rejects (.devSetAddress 7) s0 .errState = true ∧
    rejects (.devSetAddress 256) (afterSetup s0 [0, 5, 7]) .errArg = true ∧
    next (exec (.devSetAddress 7) (afterSetup s0 [0, 5, 7])) (fun t =>
      t.dev == ⟨0, true, 7, 0⟩) = true := by decide
/-- Program P8b, step 2; V42-3. -/
theorem test_devSetConfig : next (exec (.devSetConfig 1) (afterSetup s0 [0, 9, 1])) (fun t =>
    t.dev.configurationValue == 1 && ctl t 1 .out == 0x8040 && ((t.epDir 1 .out).bd false).addr == 0x40) = true ∧
    rejects (.devSetConfig 2) (afterSetup s0 [0, 9, 2]) .errArg = true ∧
    rejects (.devSetConfig 257) (afterSetup s0 [0, 9, 1]) .errArg = true := by decide
/-- V70-1. -/
theorem test_stackInit : next (exec .stackInit s1halted) (fun t =>
    ctl t 0 .out == 0x8008 && t.dev.configurationValue == 0 && t.tcIrqEn && t.outputs == [] &&
      ctl t 1 .out == 0x0040) = true := by decide
/-- V70-2. -/
theorem test_busReset : next (exec .busReset (s1msc { s1.msc with
    state := .dataOut, op := .write, wbufFill := 128, wcb := 9 })) (fun t =>
    t.outputs == [.drvWriteBuffer 9 false 128] && t.msc.state == .idle && t.dev.configurationValue == 0) = true := by
  decide
/-- V70-4: not taken inside a critical section. -/
theorem test_busReset_masked : next (exec .busReset (s1.setIrq false)) (fun t =>
    t == (s1.setIrq false).setBusReset true) = true := by decide

/-! ### The channel -/

/-- V40-10. -/
theorem test_hwOut : next (exec (.hwOut 1 false (List.replicate 31 7)) s1) (fun t =>
    ctl t 1 .out == 0x001F && t.tcq == [⟨1, .out⟩] && (t.epDir 1 .out).unread false &&
      t.bytes 0x40 32 == List.replicate 31 7 ++ [0]) = true := by decide
/-- V40-13. -/
theorem test_hwOut_not_enabled :
    next (exec (.hwOut 1 true [1]) s1) (fun t => t == s1.show (.noHandshake 1)) = true ∧
    next (exec (.hwOut 1 false (List.replicate 65 0)) s1) (fun t => t == s1.show (.noHandshake 1)) = true := by
  decide
theorem test_hwIn : next (exec (.hwIn 1) (put (s1.onDir 1 .inp fun x => { x with
    bd0 := ⟨0x80, 2, .hw, true, false⟩ }) 0x80 [5, 6])) (fun t =>
    t.wire == [.data 1 true [5, 6]] && ctl t 1 .inp == 0x4002 && t.tcq == [⟨1, .inp⟩]) = true := by decide
/-- V40-15. -/
theorem test_hwIn_stall : next (exec (.hwIn 1) s1halted) (fun t => t == s1halted.show (.stall 1 .inp)) = true := by
  decide
/-- V41-19: a SETUP ends a stall of endpoint 0. -/
theorem test_hwSetup : next (exec (.hwSetup [0x80, 6, 0, 1, 0, 0, 0x12, 0]) (s0.onDir 0 .out fun x =>
    { x with halted := true, bd0 := ⟨0, 8, .hw, false, true⟩ })) (fun t =>
    ctl t 0 .out == 0x0008 && t.ep0Hold && !(t.epDir 0 .out).halted && t.tcq == [⟨0, .setup⟩]) = true := by decide
/-- `S1` with a double-buffered endpoint 0 OUT, halted as `SET_HALT` leaves it (R109). -/
def outPairHalted : State :=
  { s1 with cfg := { s1.cfg with eps := s1.cfg.eps.set 0 ⟨⟨true, 8, 0x0000, 0x0018⟩, ⟨false, 8, 0x0008, 0⟩⟩ } }.onDir
    0 .out fun x => { x with halted := true, bd0 := ⟨0, 8, .hw, false, true⟩ }
/-- 10_state.md R47: after the SETUP nothing is owned by the channel, and the next descriptor to arm is the one it
looks at next. -/
theorem test_hwSetup_doubleBuffered : next (exec (.hwSetup [0x80, 6, 0, 1, 0, 0, 0x12, 0]) outPairHalted) (fun t =>
    (t.epDir 0 .out).hwIdx && (t.epDir 0 .out).activeIdx && ctl t 0 .out == 0x0008) = true := by decide

/-! ### Completions -/

/-- R114; the configuration of V40-16 has an endpoint 2 of another owner. -/
def s2 : State := sent s1 2 0x100 10
theorem test_extTc : next (exec (.extTc 2 .inp) s2) (fun t =>
    t.outputs == [.externalTc 2 .inp .inp 10] && (t.epDir 2 .inp).nextToggle && t.tcq == []) = true := by decide
theorem test_evTc : next (exec (.evTc ⟨2, .inp⟩) s2) (fun t =>
    t.outputs == [.externalTc 2 .inp .inp 10] && t.tcq == []) = true ∧
    refusedAs (exec (.evTc ⟨1, .inp⟩) s2) .notHeadOfQueue = true := by decide
/-- V43-5: case 5, the first packet of the response. -/
theorem test_mscOut_inquiry : next (exec .mscOut (withCbw (cbw 512 0x80 6 inq).bytes)) (fun t =>
    t.msc.state == .dataIn && t.msc.caseNo == 5 && ctl t 1 .inp == 0x8024 && ctl t 1 .out == 0xC040 &&
      t.msc.txLast == 36 && t.msc.currentTag == 0x11223344) = true := by decide
/-- V43-21: a wrong signature. -/
theorem test_mscOut_bad : next (exec .mscOut (withCbw ([0x55, 0x53, 0x42, 0x44] ++ List.replicate 27 0)))
    (fun t => t.msc.state == .nrr && ctl t 1 .inp == 0xA040 && ctl t 1 .out == 0xA040) = true := by decide
/-- Program P4, step 2. -/
theorem test_mscIn_stalls : next (exec .mscIn ((sent s1 1 0x80 36).setMsc { s1.msc with
    state := .dataIn, requested := 512, intentLen := 36, txLast := 36, inArmed := true })) (fun t =>
    t.msc.state == .stall && t.msc.residue == 476 && t.msc.transferred == 36 && ctl t 1 .inp == 0xA040) = true := by
  decide
/-- Program P4, step 5. -/
theorem test_mscIn_csw : next (exec .mscIn ((sent s1 1 0x80 13).setMsc { s1.msc with
    state := .csw, cswArmed := true, residue := 476 })) (fun t =>
    t.msc.state == .idle && !t.msc.cswArmed && t.msc.residue == 0 && (t.epDir 1 .inp).nextToggle) = true := by decide

/-! ### The transport's notifications -/

/-- A READ_10 of `d` bytes in its data phase. -/
def reading (d : Nat) : State := s1msc { s1.msc with
  state := .dataIn, op := .read, txSrc := .driver, requested := d, intentLen := d }
/-- Program P6, step 2. -/
theorem test_evBlockReady : next (exec (.evBlockReady 0x1000 512) (put (reading 2048) 0x1000 [1, 2, 3])) (fun t =>
    t.msc.txRem == 448 && t.msc.inArmed && ctl t 1 .inp == 0x8040 && t.bytes 0x80 4 == [1, 2, 3, 0]) = true ∧
    refusedAs (exec (.evBlockReady 0x1000 512) s1) .notificationRequire = true := by decide
/-- V43-33. -/
theorem test_evReadComplete : next (exec (.evReadComplete false) ((reading 1024).setMsc
    { (reading 1024).msc with transferred := 512 })) (fun t =>
    t.msc.state == .stall && t.msc.residue == 512 && t.msc.status == 1 && t.sense == ⟨0x03, 0x11⟩ &&
      ctl t 1 .inp == 0xA040) = true := by decide
/-- A WRITE_10 of `d` bytes in its data phase, `t` of them received. -/
def writing (d t : Nat) : State := s1msc { s1.msc with
  state := .dataOut, op := .write, requested := d, intentLen := d, transferred := t, wbufPtr := 0x2000
  wbufCap := 512, wcb := 9 }
/-- Program P7, step 4. -/
theorem test_evWriteDataHandled : next (exec .evWriteDataHandled (put ((writing 1024 512).setMsc
    { (writing 1024 512).msc with awaitingDrain := true, wbufFill := 512, missed := 1, missedPtr := 0x40
                                  missedLen := 64 }) 0x40 [9, 8])) (fun t =>
    t.msc.wbufFill == 64 && t.msc.transferred == 576 && t.msc.missed == 0 && !t.msc.awaitingDrain &&
      t.bytes 0x2000 3 == [9, 8, 0]) = true := by decide
/-- Program P7, step 7. -/
theorem test_evWriteComplete : next (exec (.evWriteComplete true) (writing 1024 1024)) (fun t =>
    t.msc.state == .csw && t.msc.cswArmed && t.msc.residue == 0 && ctl t 1 .inp == 0x800D &&
      t.bytes 0x80 4 == [0x55, 0x53, 0x42, 0x53]) = true := by decide
/-- V43-44. -/
theorem test_evWriteComplete_fails : next (exec (.evWriteComplete false) (writing 512 512)) (fun t =>
    t.sense == ⟨0x03, 0x0C⟩ && t.msc.status == 1 && t.msc.residue == 0 && t.msc.state == .csw &&
      t.msc.cswArmed) = true := by decide
/-- Program P5, step 4. -/
theorem test_mscReset : next (exec .mscReset (s1halted.setMsc { s1.msc with state := .nrr })) (fun t =>
    t.msc.state == .idle && (t.epDir 1 .inp).halted && ctl t 1 .inp == 0xA040) = true ∧
    rejects .mscReset s0 .errNotConfigured = true := by decide
/-- R194, in `STALL` with no halt left. -/
theorem test_mscHaltCleared : next (exec (.mscHaltCleared .inp) (s1msc { s1.msc with
    state := .stall, currentTag := 0x11223344, residue := 476 })) (fun t =>
    t.msc.state == .csw && t.msc.cswArmed &&
      t.bytes 0x80 13 == [0x55, 0x53, 0x42, 0x53, 0x44, 0x33, 0x22, 0x11, 0xDC, 1, 0, 0, 0]) = true := by decide
theorem test_csw : next (exec (.csw 0x11223344 476 0) (s1msc { s1.msc with
    state := .csw, currentTag := 0x11223344, residue := 476 })) (fun t =>
    t.msc.state == .csw && ctl t 1 .inp == 0x800D) = true ∧
    rejects (.csw 1 0 0) (s1msc { s1.msc with state := .csw }) .errArg = true ∧
    rejects (.csw 0 0 0) s1 .errState = true := by decide
/-- V43-1: case 1. -/
theorem test_cbw : next (exec (.cbw (cbw 0 0 6 [0]).bytes) s1) (fun t =>
    t.msc.state == .csw && t.msc.caseNo == 1 && t.msc.status == 0 && ctl t 1 .inp == 0x800D) = true := by decide
/-- V43-11: case 11. -/
theorem test_cbw_case11 : next (exec (.cbw (cbw 1024 0 10 [0x2A, 0, 0, 0, 0, 0, 0, 0, 1, 0]).bytes) s1) (fun t =>
    t.msc.state == .stall && t.msc.caseNo == 11 && t.msc.status == 1 && t.msc.residue == 1024 &&
      ctl t 1 .out == 0xA040) = true := by decide

/-! ### Outputs and queries -/

theorem test_outputs : next (exec (.setupRequest ⟨1, 2, 3, 4, 5⟩) s0)
      (fun t => t.outputs == [.setupRequest ⟨1, 2, 3, 4, 5⟩]) = true ∧
    next (exec (.completion 7 true) s0) (fun t => t.outputs == [.completion 7 true]) = true ∧
    next (exec (.setDeviceAddress 7) s0) (fun t => t.outputs == [.setDeviceAddress 7]) = true ∧
    next (exec (.drvBlockSent true) s0) (fun t => t.outputs == [.drvBlockSent true]) = true ∧
    next (exec (.drvWriteBuffer 9 false 64) s0) (fun t => t.outputs == [.drvWriteBuffer 9 false 64]) = true := by
  decide
theorem test_queries : next (exec (.drvGetInfo 2 512 1000 true) s0)
      (fun t => (t.drvOf 2).count == 1000 && (t.drvOf 1).count == 0) = true ∧
    next (exec (.drvUnitReady 1 true) s0) (fun t => (t.drvOf 1).ready) = true ∧
    next (exec (.drvStartStop 0 true false true) s0) (fun t => (t.drvOf 0).startStopOk) = true ∧
    next (exec (.drvStartRead 0 8 2 true) s0) (fun t => (t.drvOf 0).startReadOk) = true ∧
    next (exec (.drvStartWrite 0 8 2 true 0x2000 512 9) s0) (fun t =>
      (t.drvOf 0).buffer == 0x2000 && (t.drvOf 0).cb == 9) = true := by decide

/-! ### Requests -/

/-- V42-9 with no oracle answer, and V41-15. -/
theorem test_getMaxLun : next (exec (.getMaxLun 0) (afterSetup s1 [0xA1, 0xFE, 0, 0, 0, 0, 1, 0])) (fun t =>
    ctl t 0 .inp == 0xA008 && ctl t 0 .out == 0xC008) = true := by decide
/-- A configuration whose oracles answer one descriptor and one vendor request. -/
def oracles (s : State) : State := { s with cfg := { s.cfg with
  descriptors := [⟨1, 0, 0, 0x100, 18⟩]
  dispatch := [(⟨0x40, 1, 0, 0, 10⟩, .receive 0x200 10 7)] } }
/-- Program P1, step 3, as the request. -/
theorem test_getDescriptor : next (exec (.getDescriptor 1 0 0 64) (oracles
    (afterSetup s0 [0x80, 6, 0, 1, 0, 0, 0x40, 0]))) (fun t =>
    t.cteState == .dataIn && t.cs.remaining == 10 && ctl t 0 .inp == 0xC008) = true ∧
    next (exec (.getDescriptor 2 0 0 64) (oracles (afterSetup s0 [0x80, 6, 0, 2, 0, 0, 0x40, 0]))) (fun t =>
      t.cteState == .idle && ctl t 0 .inp == 0xA008) = true := by decide
theorem test_setup_request : next (exec (.setup .request ⟨0x40, 1, 0, 0, 10⟩) (oracles
    (afterSetup s0 [0x40, 1, 0, 0, 0, 0, 10, 0]))) (fun t =>
    t.cteState == .dataOut && t.cs.cbId == 7) = true := by decide
/-- Program P1, steps 1 and 2. -/
theorem test_setup_wire : next (exec (.setup .wire ⟨0x80, 6, 0x100, 0, 64⟩) s0) (fun t =>
    t.cteState == .setupReceived && t.setup.wLength == 64 && t.ep0Hold && ctl t 0 .out == 0x0008 &&
      t.bytes 0 8 == [0x80, 6, 0, 1, 0, 0, 0x40, 0]) = true := by decide
/-- V42-1. -/
theorem test_setAddress : next (exec (.setAddress 7 0) (afterSetup s0 [0, 5, 7, 0, 0, 0, 0, 0])) (fun t =>
    t.dev == ⟨0, true, 7, 0⟩ && t.cteState == .status) = true := by decide
/-- V42-2, V42-3. -/
theorem test_setConfiguration : next (exec (.setConfiguration 1 0) (afterSetup s0 [0, 9, 1])) (fun t =>
    t.dev.configurationValue == 1 && t.cteState == .status && ctl t 1 .out == 0x8040) = true ∧
    next (exec (.setConfiguration 2 0) (afterSetup s0 [0, 9, 2])) (fun t =>
      t.dev.configurationValue == 0 && ctl t 0 .inp == 0xA008 && ctl t 0 .out == 0xA008) = true := by decide
/-- V42-7: `NRR` keeps its halts, and the request succeeds. -/
theorem test_clearFeature : next (exec (.clearFeatureEndpointHalt 0x81) ((afterSetup s1halted [2, 1]).setMsc
    { s1.msc with state := .nrr })) (fun t =>
    (t.epDir 1 .inp).halted && t.msc.state == .nrr && t.cteState == .status) = true := by decide
/-- V42-6, V42-10. -/
theorem test_setFeature : next (exec (.setFeatureEndpointHalt 0x81) (afterSetup s1 [2, 3])) (fun t =>
    ctl t 1 .inp == 0xA040 && t.cteState == .status) = true ∧
    next (exec (.setFeatureEndpointHalt 0x81) ((afterSetup s1 [2, 3]).setMsc { s1.msc with state := .dataIn }))
      (fun t => !(t.epDir 1 .inp).halted && ctl t 0 .inp == 0xA008) = true := by decide
/-- V42-8, and program P5, step 4. -/
theorem test_bulkOnlyReset : next (exec .bulkOnlyMassStorageReset (afterSetup s0 [0x21, 0xFF])) (fun t =>
    t.cteState == .idle && ctl t 0 .inp == 0xA008) = true ∧
    next (exec .bulkOnlyMassStorageReset ((afterSetup s1halted [0x21, 0xFF]).setMsc
      { s1.msc with state := .nrr })) (fun t =>
      t.msc.state == .idle && (t.epDir 1 .inp).halted && t.cteState == .status) = true := by decide

/-! ### SCSI commands -/

/-- `S1` with the driver's answers changed. -/
def s1drv (a : DrvAnswers) : State := s1.setDrv 0 a
theorem test_testUnitReady : next (exec .testUnitReady s1) (fun t => t.reply == some (.eval .none 0 true)) = true ∧
    next (exec .testUnitReady (s1drv { drv0 with ready := false })) (fun t =>
      t.reply == some (.eval .none 0 false) && t.sense == ⟨0x02, 0x3A⟩) = true := by decide
/-- 44_scsi.md R222: sense key at byte 2, additional sense code at byte 12. -/
theorem test_requestSense : next (exec .requestSense (s1.setSense ⟨0x07, 0x27⟩)) (fun t =>
    t.reply == some (.eval .inp 18 true) && byteAt t.msc.resp 0 == 0x70 && byteAt t.msc.resp 2 == 0x07 &&
      byteAt t.msc.resp 12 == 0x27) = true := by decide
theorem test_inquiry : next (exec .inquiry s1) (fun t => t.reply == some (.eval .inp 36 true)) = true := by decide
theorem test_modeSense6 : next (exec .modeSense6 (s1drv { drv0 with writeProtect := true })) (fun t =>
    t.reply == some (.eval .inp 4 true) && t.msc.resp.take 4 == [3, 0, 0x80, 0]) = true := by decide
theorem test_startStopUnit : next (exec (.startStopUnit false true) (s1drv { drv0 with startStopOk := false }))
    (fun t => t.reply == some (.eval .none 0 false) && t.sense == ⟨0x05, 0x24⟩ &&
      t.outputs == [.drvStartStop 0 false true]) = true := by decide
/-- V44-11, V44-12. -/
theorem test_readCapacity10 : next (exec .readCapacity10 s1) (fun t =>
    t.reply == some (.eval .inp 8 true) && t.msc.resp.take 8 == [0, 0, 3, 0xE7, 0, 0, 2, 0] &&
      t.msc.blockSize.get 0 == 512) = true ∧
    next (exec .readCapacity10 (s1drv { drv0 with count := 0 })) (fun t =>
      t.reply == some (.eval .none 0 false) && t.sense == ⟨0x02, 0x3A⟩) = true := by decide
/-- V44-13, V44-14. -/
theorem test_read10 : next (exec (.read10 996 4) s1) (fun t => t.reply == some (.eval .inp 2048 true)) = true ∧
    next (exec (.read10 997 4) s1) (fun t =>
      t.reply == some (.eval .none 0 false) && t.sense == ⟨0x05, 0x21⟩) = true := by decide
/-- V44-15, V44-16: the range check does not wrap, and the intent may exceed 32 bits. -/
theorem test_read10_large : next (exec (.read10 0xFFFFFFFF 0xFFFF) s1) (fun t =>
      t.reply == some (.eval .none 0 false)) = true ∧
    next (exec (.read10 0 0xFFFF) (s1drv { drv0 with blockSize := 131072, count := 100000 })) (fun t =>
      t.reply == some (.eval .inp 8589803520 true)) = true := by decide
/-- V44-18, V44-19. -/
theorem test_write10 : next (exec (.write10 8 2) s1) (fun t => t.reply == some (.eval .out 1024 true)) = true ∧
    next (exec (.write10 8 2) (s1drv { drv0 with writeProtect := true })) (fun t =>
      t.reply == some (.eval .none 0 false) && t.sense == ⟨0x07, 0x27⟩) = true := by decide
/-- V44-20. -/
theorem test_scsiUnknown : next (exec (.scsiUnknown 0xA0) s1) (fun t =>
    t.reply == some (.eval .none 0 false) && t.sense == ⟨0x05, 0x20⟩) = true := by decide

/-! ### Stops -/

/-- 20_memory.md R61: an access beyond the address space. -/
theorem test_refused_address : refusedAs (exec (.startControlReturn 0xFFFC 18 64)
    (afterSetup s0 [0x80, 6, 0, 1, 0, 0, 0x40, 0])) (.addressRange 0xFFFC 8) = true := by decide
theorem test_refused_arm : refusedAs (exec (.arm 2 .inp 0 0) s1) .endpointOutOfTable = true := by decide
theorem test_refused_csw : refusedAs (exec (.csw 0 0 0) (s1msc { s1.msc with state := .csw, cswArmed := true }))
    .cswRequire = true := by decide
theorem test_refused_missed : refusedAs (exec .mscOut ((withCbw [1]).setMsc { (writing 64 0).msc with
    awaitingDrain := true, missed := 1 })) .secondMissedPacket = true := by decide
theorem test_refused_configuration : refusedAs (step { s0 with cfg := { s0.cfg with mps0 := 7 } })
    .badConfiguration = true := by decide

/-- 93 U9: an oracle's answer has the widths of the parameters. -/
theorem test_refused_disposition : refusedAs (step { s0 with cfg := { s0.cfg with
    dispatch := [(⟨0x40, 1, 0, 0, 10⟩, .receive 0x10000 10 7)] } }) .badConfiguration = true := by decide
/-- U1: a packet buffer of an endpoint of another owner, with the block and with the channel. -/
theorem test_external_buffer :
    let c := { s0.cfg with nEp := 3, eps := s0.cfg.eps.set 2 ⟨⟨false, 64, 0x100, 0⟩, ⟨false, 64, 0x140, 0⟩⟩ }
    let s := { s1 with cfg := c, inputs := [.memWrite 0x140 [1]] }
    next (step s) (fun t => t.bytes 0x140 1 == [1]) = true ∧
    refusedAs (step (armStore s 2 .inp 0x140 1)) .foreignBufferWrite = true := by decide

/-! ### Witnesses: for every statement with hypotheses, a state and operands that meet them together -/

theorem next_ok {r : Res} (h : next r (fun _ => true) = true) : ∃ t, r = .next t := by
  cases r with
  | next t => exact ⟨t, rfl⟩
  | fault _ => simp [next] at h
  | refused _ => simp [next] at h

/-- A record waiting in the inputs. -/
def rec1 : InRecord := ⟨.op, [0x15]⟩
theorem witness_StepRunsDecodedInstruction : (s0.setInputs [.record rec1]).cfg.wf = true ∧
    ((s0.setInputs [.record rec1]).busResetPending = true → (s0.setInputs [.record rec1]).tcIrqEn = false) ∧
    (s0.setInputs [.record rec1]).inputs = .record rec1 :: [] ∧
    decode Config.cfg1 rec1 = some .critEnter := by decide
theorem witness_DecodeOfEncode : Config.cfg1.wf = true ∧
    WellFormed Config.cfg1 (.arm 1 .inp 0xFFFF 65535) = true ∧ WellFormed Config.cfg1 (.read10 0xFFFFFFFF 0xFFFF) =
      true ∧ WellFormed Config.cfg1 (.cbw v30_3) = true := by decide
theorem witness_EncodeOfDecode : (decode Config.cfg1 ⟨.tc, [0xFA]⟩).isSome = true ∧
    (decode Config.cfg1 ⟨.setupWire, [1, 2, 3, 4, 5, 6, 7, 8]⟩).isSome = true ∧
    (decode Config.cfg1 ⟨.setupRequest, [0x80, 6, 2, 3, 9, 4, 0x40, 0]⟩).isSome = true ∧
    (decode Config.cfg1 ⟨.cbw31, List.replicate 31 0xFF⟩).isSome = true ∧
    (decode Config.cfg1 ⟨.csw13, [0x55, 0x53, 0x42, 0x53, 1, 2, 3, 4, 5, 6, 7, 8, 9]⟩).isSome = true := by decide

/-- A read phase whose last packet has just been taken: the next step sends the CSW. -/
def busy : State := (sent s1 1 0x80 36).setMsc { s1.msc with
  state := .dataIn, requested := 36, intentLen := 36, txLast := 36, inArmed := true }
theorem busy_steps : ∃ t, step busy = .next t := next_ok (by decide)
/-- The next input is a write of two bytes by the environment. -/
def writes (a : Nat) : State := s1.setInputs [.memWrite a [1, 2]]
/-- A step; a write that touches the last byte of a packet buffer; one at the end of memory. -/
theorem witness_StepKeepsMemoryCanonical : ((put busy 5 [1, 2]).memoryOk ∧ ∃ t, step (put busy 5 [1, 2]) = .next t) ∧
    ((writes 0x7F).cfg.wf = true ∧ ((writes 0x7F).busResetPending = true → (writes 0x7F).tcIrqEn = false) ∧
      (writes 0x7F).memoryOk ∧ (writes 0x7F).inputs = .memWrite 0x7F [1, 2] :: []) ∧
    (∃ b ∈ (writes 0x7F).foreignBuffers, ∃ x, (0x7F ≤ x ∧ x < 0x7F + 2) ∧ b.1 ≤ x ∧ x < b.1 + b.2) ∧
    (∀ b ∈ (writes 0xFFFE).foreignBuffers,
      ¬∃ x, (0xFFFE ≤ x ∧ x < 0xFFFE + 2) ∧ b.1 ≤ x ∧ x < b.1 + b.2) ∧
    0xFFFE + 2 ≤ (writes 0xFFFE).cfg.memSize := by
  refine ⟨⟨by unfold State.memoryOk; decide, next_ok (by decide)⟩,
    ⟨by decide, by decide, by unfold State.memoryOk; decide, rfl⟩,
    ⟨(0x40, 64), by decide, 0x7F, by decide, by decide, by decide⟩, ?_, by decide⟩
  have far : ∀ b ∈ (writes 0xFFFE).foreignBuffers, b.1 + b.2 ≤ 0xFFFE := by decide
  rintro b hb ⟨x, ⟨h1, h2⟩, h3, h4⟩
  have := far b hb
  omega
theorem witness_StepKeepsSession : (afterSetup s1 [0x80, 6, 0, 1]).sessionOk ∧
    ∃ t, step (afterSetup s1 [0x80, 6, 0, 1]) = .next t :=
  ⟨by unfold State.sessionOk; decide, next_ok (by decide)⟩
theorem witness_StepKeepsCounters : busy.countersOk ∧ busy.pumpOk ∧ ∃ t, step busy = .next t :=
  ⟨by unfold State.countersOk; decide, by unfold State.pumpOk; decide, busy_steps⟩
theorem witness_StepKeepsConfigurationGate : s0.gateOk ∧ ∃ t, step (s0) = .next t := by
  refine ⟨fun _ => ⟨?_, by decide, by decide⟩, next_ok (by decide)⟩
  intro e d; cases d <;> revert e <;> decide
theorem witness_StepKeepsWidths : busy.countersOk ∧ busy.pumpOk ∧ busy.widthsOk ∧ ∃ t, step busy = .next t := by
  refine ⟨witness_StepKeepsCounters.1, witness_StepKeepsCounters.2.1, ⟨?_, by decide⟩, busy_steps⟩
  intro e d; cases d <;> revert e <;> decide
theorem s1halted_orderOk : s1halted.orderOk := by
  intro e d; unfold State.orderAgrees
  cases d <;> revert e <;> decide
/-- A halt cleared, and a SETUP that ends the halt of a double-buffered endpoint 0 OUT. -/
theorem witness_HaltAndStallAgree :
    (s1halted.cfg.wf = true ∧ s1halted.haltOk ∧ s1halted.ep0Ok ∧ s1halted.orderOk ∧
      (∃ t, exec (.clearHalt 1 .inp) s1halted = .next t) ∧
      (Instr.clearHalt 1 .inp = .epInit → s1halted.cteState ≠ .setupReceived)) ∧
    (outPairHalted.cfg.wf = true ∧ outPairHalted.haltOk ∧ outPairHalted.ep0Ok ∧ outPairHalted.orderOk ∧
      ∃ t, exec (.hwSetup []) outPairHalted = .next t) := by
  refine ⟨⟨by decide, ?_, ⟨by decide, fun h => absurd h (by decide), by decide, by decide⟩, s1halted_orderOk,
    next_ok (by decide), by decide⟩, by decide, ?_,
    ⟨by decide, fun h => absurd h (by decide), by decide, by decide⟩, ?_, next_ok (by decide)⟩ <;>
  intro e d <;> first | unfold State.haltAgrees | unfold State.orderAgrees
  all_goals cases d <;> revert e <;> decide
/-- The state that rules out: `DATA_IN` with endpoint 0 IN halted. -/
theorem ep0Ok_rules_out_halted_dataIn :
    ¬((s1.onDir 0 .inp fun x => { x with halted := true }).setCte .dataIn).ep0Ok := fun h => by
  have := h.2.2.2 (by decide)
  exact absurd this (by decide)
theorem witness_LatchedCbwIsImmutable : busy.msc.state ≠ .idle ∧ ∃ t, exec .mscIn busy = .next t :=
  ⟨by decide, next_ok (by decide)⟩
/-- The transport after a bad CBW. -/
def nrr : State := (s1halted.onDir 1 .out fun x => { x with halted := true, bd0 := ⟨0x40, 64, .hw, false, true⟩
  }).setMsc { s1.msc with state := .nrr }
theorem witness_NrrIsLeftByResetOnly : nrr.msc.state = .nrr ∧ (∃ t, exec .mscReset nrr = .next t) ∧
    ∃ t, exec (.clearHalt 1 .inp) nrr = .next t := ⟨by decide, next_ok (by decide), next_ok (by decide)⟩
theorem witness_WritersOfLatches : busy.cfg.wf = true ∧ WellFormed busy.cfg .mscIn = true ∧
    ∃ t, exec .mscIn busy = .next t := ⟨by decide, by decide, next_ok (by decide)⟩
theorem witness_RejectedCommandChangesNothing : isCommand (.setHalt 5 .inp) ∧
    next (exec (.setHalt 5 .inp) s1) (fun t => t.reply == some (.code .errArg)) = true ∧
    ResultCode.errArg ≠ .ok := ⟨trivial, by decide, by decide⟩

/-- One clause after another: not in the table, gated, too long, halted, owned by the channel, accepted at the
largest length. -/
theorem witness_ArmOffersDescriptor : s1.cfg.nEp ≤ (2 : EpNum).val ∧
    ((1 : EpNum).val < s0.cfg.nEp ∧ (1 : EpNum) ≠ 0 ∧ s0.dev.configurationValue = 0) ∧
    ((1 : EpNum).val < s1.cfg.nEp ∧ s1.dev.configurationValue ≠ 0 ∧ 65 > s1.cfg.mps 1 .inp) ∧
    (64 ≤ s1halted.cfg.mps 1 .inp ∧ (s1halted.epDir 1 .inp).halted = true) ∧
    ((s1.epDir 1 .out).halted = false ∧ ((s1.epDir 1 .out).bd (s1.active 1 .out)).owner = .hw) ∧
    (64 ≤ s1.cfg.mps 1 .inp ∧ (s1.epDir 1 .inp).halted = false ∧
      ((s1.epDir 1 .inp).bd (s1.active 1 .inp)).owner = .fw ∧
      (s1.epDir 1 .inp).unread (s1.active 1 .inp) = false) := by decide
theorem witness_QueryLenReturnsCount : s1.cfg.nEp ≤ 16 ∧ ((1 : EpNum).val < s0.cfg.nEp ∧ (1 : EpNum) ≠ 0 ∧
      s0.dev.configurationValue = 0) ∧
    (s1.dev.configurationValue ≠ 0 ∧ ((s1.epDir 1 .inp).bd false).owner = .fw ∧
      (s1.epDir 1 .inp).unread false = false ∧ (s1.epDir 1 .inp).rearmed false = false) ∧
    ((s1.epDir 1 .out).bd false).owner = .hw ∧ (busy.epDir 1 .inp).unread false = true ∧
    next (exec (.arm 1 .inp 0x80 13) s1) (fun t => t.reply == some (.code .ok) &&
      (t.epDir 1 .inp).rearmed false && !(t.epDir 1 .inp).rearmed true) = true ∧
    next (exec .epInit s1) (fun t => (t.epDir 0 .out).rearmed false) = true ∧
    (s2.tcIrqEn = true ∧ s2.tcq = ⟨2, .inp⟩ :: [] ∧ (2 : EpNum) ≠ 0 ∧ s2.isMsc 2 Pid.inp.dir = false ∧
      ∃ t, exec (.evTc ⟨2, .inp⟩) s2 = .next t) :=
  ⟨by decide, by decide, by decide, by decide, by decide, by decide, by decide, by decide, by decide, by decide,
    by decide, next_ok (by decide)⟩
theorem witness_SetHaltHaltsDirection : s1.cfg.nEp ≤ 2 ∧
    ((1 : EpNum).val < s0.cfg.nEp ∧ s0.dev.configurationValue = 0) ∧
    (busy.dev.configurationValue ≠ 0 ∧ (1 : EpNum) = busy.cfg.mscIn ∧ busy.msc.state = .dataIn) ∧
    ((s1halted.epDir 1 .inp).halted = true ∧ s1halted.msc.state = .idle) ∧
    ((1 : EpNum) ≠ 0 ∧ s1.dev.configurationValue ≠ 0 ∧ s1.msc.state = .idle ∧
      (s1.epDir 1 .inp).halted = false) := by decide
/-- A configuration with an endpoint 2 of another owner, whose IN direction is double-buffered (`CFG2`). -/
def s1c2 : State := { s1 with cfg := { s1.cfg with
  nEp := 3, eps := s1.cfg.eps.set 2 ⟨⟨false, 64, 0x100, 0⟩, ⟨true, 64, 0x140, 0x180⟩⟩ } }
/-- `s1c2` with endpoint 2 IN halted. -/
def s1c2halted : State := s1c2.onDir 2 .inp fun x => { x with halted := true, bd0 := ⟨0x140, 64, .hw, false, true⟩ }
/-- `S1` with bulk OUT halted. -/
def outHalted : State := s1.onDir 1 .out fun x => { x with halted := true, bd0 := ⟨0x40, 64, .hw, false, true⟩ }
theorem witness_ClearHaltReleasesDirection : s1.cfg.nEp ≤ 2 ∧
    ((1 : EpNum).val < s0.cfg.nEp ∧ s0.dev.configurationValue = 0) ∧
    (s1.dev.configurationValue ≠ 0 ∧ (s1.epDir 1 .inp).halted = false) ∧
    (nrr.isMsc 1 .inp = true ∧ nrr.msc.state = .nrr ∧ (nrr.epDir 1 .inp).halted = true) ∧
    ((2 : EpNum).val < s1c2halted.cfg.nEp ∧ s1c2halted.dev.configurationValue ≠ 0 ∧
      (s1c2halted.epDir 2 .inp).halted = true ∧ s1c2halted.isMsc 2 .inp = false) ∧
    ((s1halted.epDir 1 .inp).halted = true ∧ 1 = s1halted.cfg.mscIn ∧ s1halted.msc.state = .idle) ∧
    (outHalted.cfg.wf = true ∧ outHalted.dev.configurationValue ≠ 0 ∧ 1 = outHalted.cfg.mscOut ∧
      outHalted.msc.state = .idle ∧ outHalted.haltedClean 1 .out) := by
  unfold State.haltedClean; decide
/-- The state program P4 reaches at its step 3. -/
def p4 : State := s1halted.setMsc { s1.msc with state := .stall, residue := 476, currentTag := 0x11223344 }
/-- The same with bulk OUT halted instead, and with both halted. -/
def p4out : State := outHalted.setMsc p4.msc
def p4both : State := nrr.setMsc p4.msc
theorem witness_ClearHaltReleasesCsw :
    (p4.cfg.wf = true ∧ p4.memoryOk ∧ p4.dev.configurationValue ≠ 0 ∧ p4.msc.state = .stall ∧
      p4.msc.cswArmed = false ∧ p4.msc.inArmed = false ∧ p4.haltedClean 1 .inp ∧
      p4.nextBuf 1 .inp + 13 ≤ p4.cfg.memSize) ∧
    (p4out.haltedClean 1 .out ∧ p4out.clear 1 .inp ∧ p4out.nextBuf 1 .inp + 13 ≤ p4out.cfg.memSize) ∧
    (p4both.haltedClean 1 .out ∧ (p4both.epDir 1 .inp).halted = true) := by
  unfold State.memoryOk State.haltedClean State.clear; decide

/-- A SETUP waiting for its disposition, with bytes at 0x100. -/
def waiting : State := put (afterSetup s1 [0x80, 6, 0, 1, 0, 0, 0x40, 0]) 0x100 [1, 2, 3]
theorem waiting_clear : waiting.clear 0 .inp ∧ waiting.clear 0 .out := by unfold State.clear; decide
/-- The request at its longest, from the last 8 bytes of memory. -/
theorem witness_ControlReturnSendsFirstChunk : waiting.memoryOk ∧ waiting.cteState = .setupReceived ∧ 65535 < 65536 ∧
    (0 < 65535 ∧ waiting.clear 0 .inp ∧ waiting.clear 0 .out ∧
      0xFFF8 + min (min 18 65535) waiting.cfg.mps0 ≤ waiting.cfg.memSize ∧
      waiting.nextBuf 0 .inp + min (min 18 65535) waiting.cfg.mps0 ≤ waiting.cfg.memSize) :=
  ⟨by unfold State.memoryOk; decide, by decide, by decide, by decide, waiting_clear.1, waiting_clear.2, by decide,
    by decide⟩
theorem witness_AcceptArmsStatusStage : waiting.cteState = .setupReceived ∧ waiting.clear 0 .inp ∧
    waiting.clear 0 .out := ⟨by decide, waiting_clear⟩
theorem witness_ReceiveArmsDataStage : waiting.cteState = .setupReceived ∧ 65535 < 65536 ∧ 65535 ≤ 65535 ∧
    waiting.clear 0 .inp ∧ waiting.clear 0 .out := ⟨by decide, by decide, by decide, waiting_clear⟩
/-- Both shapes: an IN data stage, and none. -/
theorem witness_RejectStallsEndpointZero : waiting.cfg.wf = true ∧ waiting.cteState = .setupReceived ∧
    waiting.clear 0 .inp ∧ waiting.clear 0 .out ∧
    (waiting.setup.bmRequestType.getLsbD 7 = true ∧ waiting.setup.wLength ≠ 0) ∧
    ((afterSetup s1 [0x40, 1]).cteState = .setupReceived ∧ (afterSetup s1 [0x40, 1]).clear 0 .inp ∧
      (afterSetup s1 [0x40, 1]).clear 0 .out ∧ (afterSetup s1 [0x40, 1]).setup.bmRequestType.getLsbD 7 = false) := by
  unfold State.clear; decide
theorem witness_DispositionOutsideSetupReceived : s1.cteState ≠ .setupReceived ∧
    next (exec (.accept none) waiting) (fun t => t.reply == some (.code .ok)) = true := by decide
theorem witness_DevSetAddressHoldsAddress : waiting.cteState = .setupReceived ∧ 127 < 128 ∧ 127 ≤ 127 := by decide
theorem witness_DevSetConfigRestartsEndpoints : waiting.cfg.wf = true ∧ waiting.cteState = .setupReceived ∧
    255 < 256 ∧ ((2 : Byte) ≠ 0 ∧ (2 : Byte) ∉ waiting.cfg.configValues) ∧ (1 : Byte) ∈ waiting.cfg.configValues := by decide
theorem witness_BusResetAbortsAndResets : (s1.setIrq false).tcIrqEn = false ∧ waiting.tcIrqEn = true ∧
    waiting.cteState ≠ .idle := by decide

/-- A read of 36 bytes from the last address, whose block has just come. -/
theorem witness_BlockReadyPumpsPacket : (s1.msc.state = .dataIn → False) ∧
    ((reading 36).msc.state = .dataIn ∧ (reading 36).msc.txSrc = .driver ∧ (reading 36).msc.op = .read ∧
      (reading 36).msc.inArmed = false ∧ (reading 36).msc.txRem = 0 ∧ 1 > 0 ∧ (reading 36).memoryOk ∧
      (reading 36).cfg.wf = true ∧ (reading 36).dev.configurationValue ≠ 0 ∧ (reading 36).clear 1 .inp ∧
      (reading 36).msc.transferred < (reading 36).msc.intentLen ∧ 0xFFFF + 1 ≤ (reading 36).cfg.memSize ∧
      (reading 36).nextBuf 1 .inp + 1 ≤ (reading 36).cfg.memSize) ∧
    (reading 0).msc.transferred = (reading 0).msc.intentLen := by
  unfold State.clear State.memoryOk; decide
/-- Nothing to complete; a packet in flight, and the read short; none in flight, one byte short; none in flight,
and every byte the host asked for sent. -/
theorem witness_ReadCompleteRecordsOutcome :
    let fly := (reading 512).setMsc { (reading 512).msc with inArmed := true, txLast := 64 }
    let short := reading 1
    let whole := (reading 64).setMsc { (reading 64).msc with transferred := 64 }
    (s1.msc.state ≠ .dataIn) ∧
    (fly.msc.state = .dataIn ∧ fly.msc.op = .read ∧ fly.msc.inArmed = true) ∧
    (short.msc.state = .dataIn ∧ short.msc.op = .read ∧ short.msc.inArmed = false ∧
      short.msc.transferred < short.msc.requested ∧ short.cfg.wf = true ∧ short.dev.configurationValue ≠ 0 ∧
      (short.epDir 1 .inp).halted = false) ∧
    (whole.msc.op = .read ∧ whole.msc.inArmed = false ∧ whole.msc.requested ≤ whole.msc.transferred ∧
      whole.msc.cswArmed = false ∧ whole.cfg.wf = true ∧ whole.memoryOk ∧ whole.dev.configurationValue ≠ 0 ∧
      whole.clear 1 .inp ∧ whole.nextBuf 1 .inp + 13 ≤ whole.cfg.memSize ∧
      ¬whole.msc.transferred + whole.msc.txRem + whole.msc.inFlight < whole.msc.intentLen) := by
  unfold State.clear State.memoryOk; decide
/-- A write whose held packet ends it exactly. -/
def held : State := ((writing 64 0).onDir 1 .out fun x => { x with bd0 := ⟨0x40, 64, .fw, false, false⟩ }).setMsc
  { (writing 64 0).msc with awaitingDrain := true, missed := 1, missedPtr := 0x40, missedLen := 64 }
/-- The same when all bytes had arrived before it. -/
def heldOver : State := held.setMsc { held.msc with transferred := 64 }
theorem witness_WriteDataHandledReopensBuffer : s1.msc.state ≠ .dataOut ∧
    (let m : Msc := { (writing 64 64).msc with awaitingDrain := true }
     m.state = .dataOut ∧ m.op = .write ∧ m.awaitingDrain = true ∧ m.missed = 0) ∧
    (held.msc.state = .dataOut ∧ held.msc.op = .write ∧ held.msc.awaitingDrain = true ∧ held.msc.missed = 1 ∧
      held.cfg.wf = true ∧ held.memoryOk ∧ held.dev.configurationValue ≠ 0 ∧ held.clear 1 .out ∧
      held.msc.missedLen ≤ held.msc.intentLen - held.msc.transferred ∧ held.msc.missedLen ≤ held.msc.wbufCap ∧
      held.msc.missedPtr + held.msc.missedLen ≤ held.cfg.memSize ∧
      held.msc.wbufPtr + held.msc.missedLen ≤ held.cfg.memSize) ∧
    (heldOver.msc.state = .dataOut ∧ heldOver.msc.op = .write ∧ heldOver.msc.awaitingDrain = true ∧
      heldOver.msc.missed = 1 ∧ heldOver.cfg.wf = true ∧ heldOver.dev.configurationValue ≠ 0 ∧
      (heldOver.epDir 1 .out).halted = false ∧
      heldOver.msc.intentLen - heldOver.msc.transferred < heldOver.msc.missedLen) := by
  unfold State.clear State.memoryOk; decide
/-- Success claimed too early; a failure after 63 bytes; and all 64 arrived, with bulk OUT armed and free. -/
theorem witness_WriteCompleteEndsDataPhase :
    let part := writing 64 63
    let whole := writing 64 64
    let free := whole.onDir 1 .out fun x => { x with bd0 := { x.bd0 with owner := .fw } }
    (part.msc.transferred ≠ part.msc.intentLen) ∧
    (part.msc.state = .dataOut ∧ part.msc.op = .write ∧ part.msc.transferred < part.msc.requested ∧
      part.cfg.wf = true ∧ part.dev.configurationValue ≠ 0 ∧ (part.epDir 1 .out).halted = false) ∧
    (whole.msc.state = .dataOut ∧ whole.msc.op = .write ∧ whole.msc.transferred = whole.msc.intentLen ∧
      whole.msc.awaitingDrain = false ∧ whole.msc.requested ≤ whole.msc.transferred ∧
      whole.msc.cswArmed = false ∧ whole.msc.inArmed = false ∧ whole.cfg.wf = true ∧ whole.memoryOk ∧
      whole.dev.configurationValue ≠ 0 ∧ whole.clear 1 .inp ∧
      whole.nextBuf 1 .inp + 13 ≤ whole.cfg.memSize ∧ ¬whole.clear 1 .out) ∧
    (free.clear 1 .inp ∧ free.clear 1 .out) := by
  unfold State.clear State.memoryOk; decide
/-- Both directions halted; bulk IN with an armed packet. -/
theorem witness_MscResetKeepsHalts : s0.dev.configurationValue = 0 ∧ nrr.cfg.wf = true ∧
    nrr.dev.configurationValue ≠ 0 ∧ (nrr.epDir nrr.cfg.mscOut .out).halted = true ∧
    (s1.epDir s1.cfg.mscOut .out).halted = false := by decide

/-- A full packet and one byte more. -/
theorem witness_HwOutStoresPayload : s1.memoryOk ∧ ((s1.epDir 1 .out).bd (s1.hw 1 .out)).owner = .hw ∧
    ((s1.epDir 1 .out).bd (s1.hw 1 .out)).stall = false ∧ ((1 : EpNum) = 0 → False) ∧
    (List.replicate 64 (0 : Byte)).length ≤ ((s1.epDir 1 .out).bd (s1.hw 1 .out)).count ∧
    ((s1.epDir 1 .out).bd (s1.hw 1 .out)).count < (List.replicate 65 (0 : Byte)).length ∧
    ((s1.epDir 1 .out).bd (s1.hw 1 .out)).addr + 64 ≤ s1.cfg.memSize := by unfold State.memoryOk; decide
/-- A packet armed on bulk IN. -/
def inArmed : State := s1.onDir 1 .inp fun x => { x with bd0 := ⟨0x80, 13, .hw, false, false⟩ }
theorem witness_HwInSendsPacket : ((inArmed.epDir 1 .inp).bd (inArmed.hw 1 .inp)).owner = .hw ∧
    ((inArmed.epDir 1 .inp).bd (inArmed.hw 1 .inp)).stall = false ∧ inArmed.ep0Hold = false ∧
    0x80 + 13 ≤ inArmed.cfg.memSize ∧ ((s0.epDir 1 .inp).bd (s0.hw 1 .inp)).owner ≠ .hw := by decide
theorem witness_HwSetupAlwaysLands : (s1.memoryOk ∧ s1.ep0Hold = false ∧
    ((s1.epDir 0 .out).bd (s1.hw 0 .out)).owner = .hw ∧ 8 ≤ ((s1.epDir 0 .out).bd (s1.hw 0 .out)).count ∧
    ((s1.epDir 0 .out).bd (s1.hw 0 .out)).addr + 8 ≤ s1.cfg.memSize) ∧
    ((outPairHalted.epDir 0 .out).halted = true ∧ outPairHalted.cfg.pingpong 0 .out = true ∧
      outPairHalted.memoryOk ∧ outPairHalted.ep0Hold = false ∧
      ((outPairHalted.epDir 0 .out).bd (outPairHalted.hw 0 .out)).owner = .hw) ∧
    (let s := s1.onDir 0 .inp fun x => { x with halted := true, bd0 := ⟨8, 8, .hw, true, true⟩ }
     s.memoryOk ∧ s.ep0Hold = false ∧ ((s.epDir 0 .out).bd (s.hw 0 .out)).owner = .hw ∧
      ((s.epDir 0 .inp).bd false).owner = .hw ∧ ((s.epDir 0 .inp).bd true).owner = .fw ∧
      (s.epDir 0 .inp).halted = true ∧ false = s.hw 0 .inp) := by
  unfold State.memoryOk; decide
/-- Stalled in both directions, and idle in both. -/
theorem witness_ChannelAnswersStallAndNak : ((nrr.epDir 1 .inp).bd (nrr.hw 1 .inp)).owner = .hw ∧
    ((nrr.epDir 1 .inp).bd (nrr.hw 1 .inp)).stall = true ∧ ((nrr.epDir 1 .out).bd (nrr.hw 1 .out)).owner = .hw ∧
    ((nrr.epDir 1 .out).bd (nrr.hw 1 .out)).stall = true ∧ ((s0.epDir 1 .inp).bd (s0.hw 1 .inp)).owner = .fw ∧
    ((s0.epDir 1 .out).bd (s0.hw 1 .out)).owner = .fw ∧ (1 : EpNum) ≠ 0 ∧ waiting.ep0Hold = true := by decide
theorem witness_CriticalSectionMasksCompletions : instrOfTc busy.cfg ⟨1, .inp⟩ = .mscIn ∧
    (busy.setIrq false).tcIrqEn = false ∧ s1.tcq = [] ∧ busy.tcIrqEn = true ∧ busy.tcq = ⟨1, .inp⟩ :: [] ∧
    (⟨1, .inp⟩ : Tc) ≠ ⟨1, .out⟩ := by decide
theorem witness_ExternalCompletionIsPassedOut : s2.tcIrqEn = true ∧ s2.tcq = ⟨2, .inp⟩ :: [] ∧ Pid.inp ≠ .setup ∧
    (2 : EpNum) ≠ 0 ∧ s2.isMsc 2 Pid.inp.dir = false := by decide
/-- A packet of 8 bytes while a session is open, and one of 7. -/
theorem witness_SetupStartsSession :
    let s := (received s1 0 .setup 0 [0x80, 6, 0, 1, 0, 0, 0x40, 0]).setCte .dataIn
    let r := received s1 0 .setup 0 [0x80, 6, 0, 1, 0, 0, 0x40]
    (s.tcIrqEn = true ∧ s.tcq = ⟨0, .setup⟩ :: [] ∧ ((s.epDir 0 .out).bd (s.rd 0 .out)).count = 8 ∧
      ((s.epDir 0 .out).bd (s.rd 0 .out)).addr + 8 ≤ s.cfg.memSize) ∧
    (r.tcIrqEn = true ∧ r.tcq = ⟨0, .setup⟩ :: [] ∧ ((r.epDir 0 .out).bd (r.rd 0 .out)).count ≠ 8 ∧
      r.cfg.wf = true ∧ (r.epDir 0 .out).halted = false ∧ (r.epDir 0 .inp).halted = false) := by decide

/-- A completion of endpoint 0 IN in a state of the engine. -/
def inDone (x : CteState) (c : Session) : State := ((sent s1 0 8 8).setCte x).setCs c
theorem witness_InCompletionAdvancesEngine :
    let c (r : Nat) (z : Bool) : Session := ⟨true, .inp, r, 0xFFFF, false, 0, z, true, 8⟩
    let s := inDone .dataIn (c 1 false)
    (s.tcIrqEn = true ∧ s.tcq = ⟨0, .inp⟩ :: [] ∧ s.oneUnread 0 .inp) ∧
    (s.cteState = .dataIn ∧ 0 < s.cs.remaining ∧ s.memoryOk ∧
      s.cs.cursor + min s.cs.remaining s.cfg.mps0 ≤ s.cfg.memSize ∧
      s.nextBuf 0 .inp + min s.cs.remaining s.cfg.mps0 ≤ s.cfg.memSize) ∧
    ((inDone .dataIn (c 0 true)).cs.remaining = 0 ∧ (inDone .dataIn (c 0 true)).cs.needsZlp = true ∧
      (inDone .dataIn (c 0 true)).oneUnread 0 .inp) ∧
    ((inDone .dataIn (c 0 false)).cs.needsZlp = false ∧ (inDone .dataIn (c 0 false)).oneUnread 0 .inp) ∧
    (let t := inDone .status { c 0 false with direction := .out }
     t.cteState = .status ∧ t.cs.direction = .out ∧ t.oneUnread 0 .inp) := by
  unfold State.oneUnread State.memoryOk; decide
/-- The completions that change nothing more. -/
theorem witness_InCompletionAdvancesEngine_discards :
    let c : Session := ⟨true, .inp, 0, 0, false, 0, false, true, 8⟩
    (inDone .idle c).oneUnread 0 .inp ∧ (inDone .status c).cs.direction = .inp := by
  unfold State.oneUnread; decide
/-- The length of the packet endpoint 0 OUT has received. -/
def outLen (s : State) : Nat := ((s.epDir 0 .out).bd (s.rd 0 .out)).count
/-- Eight bytes received in a data stage that expects nine, eight or seven; an empty status packet. -/
def outMore : State := p3 (List.replicate 8 1) 9
def outLast : State := p3 (List.replicate 8 1) 8
def outOver : State := p3 (List.replicate 8 1) 7
def outEmpty : State := ((p3 [] 0).setCte .status).setCs ⟨true, .inp, 0, 0, false, 0, false, false, 0⟩
theorem witness_OutCompletionAdvancesEngine :
    ((outMore.cfg.wf = true ∧ outMore.tcIrqEn = true ∧ outMore.tcq = ⟨0, .out⟩ :: [] ∧
      outMore.oneUnread 0 .out) ∧
    (outMore.cteState = .dataOut ∧ outMore.memoryOk ∧ outLen outMore = outMore.cfg.mps0 ∧
      outLen outMore < outMore.cs.remaining ∧ outMore.cs.cursor + outLen outMore ≤ outMore.cfg.memSize)) ∧
    (outLast.oneUnread 0 .out ∧ outLen outLast ≤ outLast.cs.remaining ∧
      outLen outLast = outLast.cs.remaining ∧ outLast.clear 0 .inp) ∧
    (outOver.oneUnread 0 .out ∧ outOver.cs.remaining < outLen outOver ∧
      (outOver.epDir 0 .inp).halted = false) ∧
    (outEmpty.oneUnread 0 .out ∧ outEmpty.cteState = .status ∧ outEmpty.cs.direction = .inp ∧
      outLen outEmpty = 0) := by
  unfold State.oneUnread State.memoryOk State.clear
  exact ⟨⟨by decide, by decide⟩, by decide, by decide, by decide⟩
/-- One byte and no byte received on endpoint 0 OUT in a state of the engine. -/
def oneByte (x : CteState) : State := (p3 [1] 0).setCte x
def noByte (x : CteState) : State := (p3 [] 0).setCte x
/-- The remaining clauses: one byte where none is expected, in both states; an early empty packet; an empty packet
of a status stage in the other direction; and a packet before the disposition. -/
theorem witness_OutCompletionAdvancesEngine_discards :
    ((oneByte .dataIn).oneUnread 0 .out ∧ 0 < outLen (oneByte .dataIn) ∧ ((oneByte .dataIn).epDir 0 .inp).halted = false) ∧
    ((oneByte .status).oneUnread 0 .out ∧ 0 < outLen (oneByte .status) ∧ ((oneByte .status).epDir 0 .inp).halted = false) ∧
    ((noByte .dataIn).cfg.wf = true ∧ (noByte .dataIn).tcIrqEn = true ∧ (noByte .dataIn).tcq = ⟨0, .out⟩ :: [] ∧
      (noByte .dataIn).oneUnread 0 .out ∧ outLen (noByte .dataIn) = 0) ∧
    ((noByte .status).oneUnread 0 .out ∧ (noByte .status).cs.direction = .out ∧ outLen (noByte .status) = 0) ∧
    (oneByte .idle).oneUnread 0 .out ∧ (oneByte .setupReceived).oneUnread 0 .out := by
  unfold State.oneUnread
  exact ⟨by decide, by decide, by decide, by decide, by decide, by decide⟩

/-- A completion of bulk IN with the transport's registers given. -/
def bulkIn (m : Msc) : State := (sent s1 1 0x80 13).setMsc m
theorem witness_BulkInCompletionAdvancesTransport :
    let a := bulkIn { s1.msc with state := .csw, cswArmed := true }
    let b := bulkIn { (reading 512).msc with inArmed := true, txLast := 64 }
    let c := bulkIn { (reading 512).msc with inArmed := true, txLast := 64, txRem := 1, txPtr := 0xFFFF }
    (a.cfg.wf = true ∧ a.tcIrqEn = true ∧ a.tcq = ⟨a.cfg.mscIn, .inp⟩ :: []) ∧
    (a.msc.state = .csw ∧ a.msc.cswArmed = true) ∧
    (b.msc.state = .dataIn ∧ b.msc.inArmed = true ∧ b.msc.txRem = 0 ∧ b.msc.txSrc = .driver ∧ b.msc.op = .read) ∧
    (0 < c.msc.txRem ∧ c.memoryOk ∧ c.dev.configurationValue ≠ 0 ∧ c.oneUnread 1 .inp ∧
      c.msc.txPtr + min c.msc.txRem (c.cfg.mps 1 .inp) ≤ c.cfg.memSize ∧
      c.nextBuf 1 .inp + min c.msc.txRem (c.cfg.mps 1 .inp) ≤ c.cfg.memSize) := by
  unfold State.oneUnread State.memoryOk; decide
/-- A response of which eight bytes are left, up to its last byte; and one sent whole, with the host asking for one
byte more, and for no more. -/
theorem witness_BulkInCompletionAdvancesTransport_response :
    let m : Msc := { s1.msc with state := .dataIn, inArmed := true, txLast := 28 }
    let a := bulkIn { m with txRem := 8, txPtr := 28 }
    let b := bulkIn { m with requested := 29 }
    let c := bulkIn { m with requested := 28 }
    (a.msc.state = .dataIn ∧ a.msc.inArmed = true ∧ 0 < a.msc.txRem ∧ a.msc.txSrc = .internal ∧ a.memoryOk ∧
      a.dev.configurationValue ≠ 0 ∧ a.oneUnread 1 .inp ∧
      a.msc.txPtr + min a.msc.txRem (a.cfg.mps 1 .inp) ≤ a.msc.resp.length ∧
      a.nextBuf 1 .inp + min a.msc.txRem (a.cfg.mps 1 .inp) ≤ a.cfg.memSize) ∧
    (b.msc.txRem = 0 ∧ b.msc.txSrc = .internal ∧ b.oneUnread 1 .inp ∧
      b.msc.transferred + b.msc.txLast < b.msc.requested) ∧
    (c.msc.txRem = 0 ∧ c.msc.op = .none ∧ c.oneUnread 1 .inp ∧ c.memoryOk ∧ c.msc.cswArmed = false ∧
      c.msc.requested ≤ c.msc.transferred + c.msc.txLast ∧ c.nextBuf 1 .inp + 13 ≤ c.cfg.memSize) := by
  unfold State.oneUnread State.memoryOk; decide
/-- A packet of 64 bytes: held; ending the transfer exactly; one byte too long. -/
theorem witness_BulkOutDataIsAccumulated :
    let s (m : Msc) := (received s1 1 .out 0x40 (List.replicate 64 1)).setMsc m
    let a := s { (writing 64 0).msc with awaitingDrain := true }
    let b := s (writing 64 0).msc
    let c := s (writing 63 0).msc
    let n (s : State) := ((s.epDir 1 .out).bd (s.rd 1 .out)).count
    (b.cfg.wf = true ∧ b.tcIrqEn = true ∧ b.tcq = ⟨b.cfg.mscOut, .out⟩ :: [] ∧ b.msc.state = .dataOut ∧
      b.dev.configurationValue ≠ 0 ∧ b.oneUnread 1 .out) ∧
    (a.oneUnread 1 .out ∧ a.msc.awaitingDrain = true ∧ a.msc.missed = 0) ∧
    (n b ≤ b.msc.intentLen - b.msc.transferred ∧ n b ≤ b.msc.wbufCap - b.msc.wbufFill ∧ b.memoryOk ∧
      b.msc.wbufPtr + b.msc.wbufFill + n b ≤ b.cfg.memSize) ∧
    (c.oneUnread 1 .out ∧ c.msc.awaitingDrain = false ∧ ¬ n c ≤ c.msc.intentLen - c.msc.transferred) := by
  unfold State.oneUnread State.memoryOk; decide
/-- A packet of 30 bytes in `IDLE`, and any packet in `CSW`. -/
theorem witness_BadCbwHaltsBothEndpoints :
    let a := withCbw (List.replicate 30 0)
    (a.cfg.wf = true ∧ a.dev.configurationValue ≠ 0 ∧ a.tcIrqEn = true ∧ a.tcq = ⟨a.cfg.mscOut, .out⟩ :: []) ∧
    (a.msc.state = .idle ∧ ((a.epDir 1 .out).bd (a.rd 1 .out)).addr + 31 ≤ a.cfg.memSize ∧
      ((a.epDir 1 .out).bd (a.rd 1 .out)).count ≠ 31) ∧
    (a.setMsc { s1.msc with state := .csw }).msc.state = .csw ∧
    ((a.epDir 1 .inp).halted = false ∧ (a.epDir 1 .out).halted = false) := by decide
/-- Cases 4, 7, 8, 9, 10, 11 and 13. -/
theorem witness_StallingCasesMatchTable : s1.cfg.wf = true ∧ s1.dev.configurationValue ≠ 0 ∧
    selectCase .inp .none 1 0 = .c4 ∧ selectCase .inp .inp 1 2 = .c7 ∧ selectCase .inp .out 1 1 = .c8 ∧
    selectCase .out .none 1 0 = .c9 ∧ selectCase .out .inp 1 1 = .c10 ∧ selectCase .out .out 2 1 = .c11 ∧
    selectCase .out .out 1 2 = .c13 ∧ (s1.epDir s1.cfg.mscIn .inp).halted = false ∧
    (s1.epDir s1.cfg.mscOut .out).halted = false := by decide
/-- Cases 1 to 3, with bulk IN halted by the host and with it free. -/
theorem witness_StallingCasesMatchTable_noData : selectCase .none .none 0 0 = .c1 ∧
    selectCase .none .inp 0 1 = .c2 ∧ selectCase .none .out 0 1 = .c3 ∧ s1.msc.cswArmed = false ∧
    s1.msc.inArmed = false ∧ (s1halted.epDir 1 .inp).halted = true ∧ s1.clear 1 .inp ∧ s1.memoryOk ∧
    s1.nextBuf 1 .inp + 13 ≤ s1.cfg.memSize := by
  unfold State.clear State.memoryOk; decide
/-- V43-30: the largest command block and the highest logical unit. -/
theorem witness_UnknownCommandSendsFailedCsw :
    let w := cbw 0 0x80 0xF0 [0xA0]
    s1.cfg.wf = true ∧ s1.memoryOk ∧ s1.dev.configurationValue ≠ 0 ∧ s1.tcIrqEn = true ∧ s1.tcq = [] ∧
    s1.msc.state = .idle ∧ s1.msc.cswArmed = false ∧ s1.msc.inArmed = false ∧ w.signature = 0x43425355 ∧
    w.flags.toNat % 128 = 0 ∧ w.lun.toNat % 16 ≤ s1.cfg.maxLun.val ∧ 1 ≤ w.cbLength.toNat % 32 ∧
    w.cbLength.toNat % 32 ≤ 16 ∧ w.length = 0 ∧ s1.cfg.scsiKind (w.cb.get 0) = none ∧
    ((s1.epDir 1 .out).bd (s1.hw 1 .out)).owner = .hw ∧ ((s1.epDir 1 .out).bd (s1.hw 1 .out)).stall = false ∧
    31 ≤ ((s1.epDir 1 .out).bd (s1.hw 1 .out)).count ∧
    ((s1.epDir 1 .out).bd (s1.hw 1 .out)).addr + 31 ≤ s1.cfg.memSize ∧ s1.rd 1 .out = s1.hw 1 .out ∧
    s1.clear 1 .inp ∧ s1.nextBuf 1 .inp + 13 ≤ s1.cfg.memSize := by
  unfold State.clear State.memoryOk; decide
/-- V43-6: the host asks for exactly 36 bytes. -/
theorem witness_InquiryBeginsDataPhase :
    let s := withCbw (cbw 36 0x80 6 inq).bytes
    let b := (s.epDir 1 .out).bd (s.rd 1 .out)
    let w := Cbw.parse (s.bytes b.addr 31)
    s.cfg.wf = true ∧ s.memoryOk ∧ s.dev.configurationValue ≠ 0 ∧ s.tcIrqEn = true ∧
    s.tcq = ⟨s.cfg.mscOut, .out⟩ :: [] ∧ s.msc.state = .idle ∧ b.count = 31 ∧ b.addr + 31 ≤ s.cfg.memSize ∧
    w.signature = 0x43425355 ∧ w.flags = 0x80 ∧ w.lun.toNat % 16 ≤ s.cfg.maxLun.val ∧
    1 ≤ w.cbLength.toNat % 32 ∧ w.cbLength.toNat % 32 ≤ 16 ∧ 36 ≤ w.length.toNat ∧ s.cfg.scsiKind (w.cb.get 0) = some .inquiry ∧
    s.clear 1 .inp ∧ s.nextBuf 1 .inp + min 36 (s.cfg.mps 1 .inp) ≤ s.cfg.memSize := by
  unfold State.clear State.memoryOk; decide
/-- A driver that starts, one that refuses, and one that offers a buffer of no bytes; bulk IN free and halted. -/
theorem witness_InquiryBeginsDataPhase_driver :
    let refuses := s1.setDrv 0 DrvAnswers.unready
    let empty := s1.setDrv 0 { drv0 with capacity := 0 }
    s1.cfg.wf = true ∧ s1.dev.configurationValue ≠ 0 ∧ (s1halted.epDir 1 .inp).halted = true ∧
    ((s1.epDir 1 .inp).halted = false ∧ (s1.drvOf s1.msc.lun).startReadOk = true) ∧
    ((refuses.epDir 1 .inp).halted = false ∧ (refuses.drvOf refuses.msc.lun).startReadOk = false) ∧
    ((s1.drvOf s1.msc.lun).startWriteOk = true ∧ (s1.drvOf s1.msc.lun).capacity ≠ 0) ∧
    ((refuses.drvOf refuses.msc.lun).startWriteOk = false ∧ (refuses.epDir 1 .out).halted = false) ∧
    (empty.drvOf empty.msc.lun).capacity = 0 := by decide
/-- `S1` with a CSW armed. -/
def armedCsw : State := inArmed.setMsc { s1.msc with state := .csw, cswArmed := true }
/-- `STALL` and `CSW` with nothing armed, `CSW` with bulk IN halted, and `IDLE` with bulk OUT released. -/
theorem witness_StatusWrapperIsSentWhenDue :
    let s (x : MscState) := s1msc { s1.msc with state := x }
    let free (x : State) := x.onDir 1 .out fun x => { x with bd0 := { x.bd0 with owner := .fw } }
    let h := s1halted.setMsc { s1.msc with state := .csw }
    ((s .stall).cfg.wf = true ∧ (s .stall).memoryOk ∧ (s .stall).dev.configurationValue ≠ 0) ∧
    ((s .stall).msc.cswArmed = false ∧ (s .stall).msc.inArmed = false ∧ (s .stall).clear 1 .inp ∧
      (s .stall).nextBuf 1 .inp + 13 ≤ (s .stall).cfg.memSize) ∧
    ((s .csw).msc.state = .csw ∧ (s .csw).clear 1 .inp ∧ ¬(s .csw).clear 1 .out) ∧
    ((free (s .csw)).clear 1 .inp ∧ (free (s .csw)).clear 1 .out) ∧
    (h.msc.state = .csw ∧ h.msc.cswArmed = false ∧ h.msc.inArmed = false ∧ (h.epDir 1 .inp).halted = true) ∧
    ((free s1).msc.state = .idle ∧ (free s1).clear 1 .out ∧ ¬s1.clear 1 .out ∧ s0.dev.configurationValue = 0) ∧
    ((p4.epDir 1 .inp).halted = true ∧ p4.msc.state = .stall ∧ ¬p4.clear 1 .out ∧ (free p4).clear 1 .out) ∧
    (armedCsw.msc.state = .csw ∧ armedCsw.msc.cswArmed = true ∧
      (armedCsw.setMsc { armedCsw.msc with cswArmed := false, inArmed := true }).msc.inArmed = true ∧
      (armedCsw.epDir 1 .inp).halted = false) ∧
    (nrr.msc.state = .nrr ∧ (reading 36).msc.state = .dataIn ∧ (writing 64 0).msc.state = .dataOut) := by
  unfold State.clear State.memoryOk; decide
/-- A configuration whose oracles answer a descriptor, `GET_MAX_LUN` and a vendor request with a control
return. -/
def returns (s : State) : State := { s with cfg := { s.cfg with
  descriptors := [⟨1, 0, 0, 0x100, 18⟩]
  dispatch := [(⟨0xA1, 0xFE, 0, 0, 1⟩, .controlReturn 0x100 1 1), (⟨0xC0, 1, 0, 0, 4⟩, .controlReturn 0xFFFC 4 4)] } }
theorem witness_OracleRequestsComplete : s0.cfg.descriptor 1 0 0 = none ∧
    ((returns waiting).cfg.wf = true ∧ (returns waiting).cteState = .setupReceived ∧
      (returns waiting).clear 0 .inp ∧ (returns waiting).clear 0 .out) ∧
    ((returns waiting).cfg.descriptor 1 0 0 = some (0x100, 18) ∧ (64 : BitVec 16).toNat = 64 ∧
      0x100 + min (min 18 64) 8 ≤ (returns waiting).cfg.memSize ∧
      (returns waiting).nextBuf 0 .inp + min (min 18 64) 8 ≤ (returns waiting).cfg.memSize) ∧
    (returns waiting).cfg.dispatchOf ⟨(returns waiting).cfg.req.getMaxLun.bmRequestType,
      (returns waiting).cfg.req.getMaxLun.bRequest, 0, (returns waiting).cfg.mscIface.setWidth 16, 1⟩ =
        .controlReturn 0x100 1 1 ∧
    (returns waiting).cfg.dispatchOf ⟨0xC0, 1, 0, 0, 4⟩ = .controlReturn 0xFFFC 4 4 ∧
    0xFFFC + min (min 4 4) 8 ≤ (returns waiting).cfg.memSize ∧ (0 : BitVec 16).toNat = 0 := by
  unfold State.clear; decide
theorem witness_DeviceRequestsComplete : waiting.cfg.wf = true ∧ waiting.cteState = .setupReceived ∧
    waiting.clear 0 .inp ∧ waiting.clear 0 .out ∧ (0 : BitVec 16).extractLsb' 0 8 = 0#8 ∧
    (0xFF01 : BitVec 16).extractLsb' 0 8 ∈ waiting.cfg.configValues :=
  ⟨by decide, by decide, waiting_clear.1, waiting_clear.2, by decide, by decide⟩
/-- Endpoint 2 IN of `CFG2`, not halted and halted. -/
theorem witness_HaltRequestsComplete : let s := afterSetup s1c2 [2, 3]
    let t := afterSetup s1c2halted [2, 1]
    s.cfg.wf = true ∧ s.cteState = .setupReceived ∧ s.clear 0 .inp ∧ s.clear 0 .out ∧
    s.dev.configurationValue ≠ 0 ∧ (2 : EpNum).val < s.cfg.nEp ∧ s.isMsc 2 .inp = false ∧
    (s.epDir 2 .inp).halted = false ∧ (t.cteState = .setupReceived ∧ t.clear 0 .inp ∧ t.clear 0 .out ∧
      t.isMsc 2 .inp = false ∧ (t.epDir 2 .inp).halted = true) := by
  unfold State.clear; decide
/-- The bulk directions: a halt that is set in `IDLE` and refused in `DATA_IN`, and one cleared in `STALL`. -/
theorem witness_HaltRequestsComplete_bulk : let s := afterSetup s1 [2, 3]
    let m := s.setMsc { s1.msc with state := .dataIn }
    s.cfg.wf = true ∧ s.cteState = .setupReceived ∧ s.clear 0 .inp ∧ s.clear 0 .out ∧
    (1 : EpNum) ≠ 0 ∧ (s.msc.state ≠ .dataIn ∧ s.msc.state ≠ .dataOut) ∧ (s.epDir 1 .inp).halted = false ∧
    next (exec (.setHalt 1 .inp) s) (fun u => u.reply == some (.code .ok)) = true ∧
    next (exec (.setHalt 1 .inp) m) (fun u => u.reply == some (.code .errState)) = true ∧
    next (exec (.clearHalt 1 .inp) (afterSetup p4 [2, 1])) (fun u => u.reply == some (.code .ok) &&
      u.msc.cswArmed) = true := by
  unfold State.clear; decide
theorem witness_SetupOnWireIsReceived : s1.memoryOk ∧ s1.ep0Hold = false ∧ s1.tcIrqEn = true ∧ s1.tcq = [] ∧
    ((s1.epDir 0 .out).bd (s1.hw 0 .out)).owner = .hw ∧ 8 ≤ ((s1.epDir 0 .out).bd (s1.hw 0 .out)).count ∧
    ((s1.epDir 0 .out).bd (s1.hw 0 .out)).addr + 8 ≤ s1.cfg.memSize ∧ s1.rd 0 .out = s1.hw 0 .out := by
  unfold State.memoryOk; decide
theorem witness_CommandsWithoutData : s1.dev.configurationValue ≠ 0 ∧ s1.msc.state = .idle := by decide
/-- Ready with blocks, at most and more than `2^32` of them; not ready; ready with none. -/
theorem witness_CommandsAnsweredFromResponse :
    let a (x : DrvAnswers) := (s1drv x).drvOf (s1drv x).msc.lun
    (s1.cfg.wf = true ∧ s1.dev.configurationValue ≠ 0 ∧ s1.msc.state = .idle ∧ s1.msc.resp.length = 36 ∧
      s1.msc.lun.val ≤ s1.cfg.maxLun.val) ∧
    ((a drv0).ready = true ∧ (a drv0).count ≠ 0 ∧ (a drv0).blockSize ≠ 0) ∧
    (a { drv0 with count := 2 ^ 32 }).count ≤ 2 ^ 32 ∧
    ¬(a { drv0 with count := 2 ^ 32 + 1 }).count ≤ 2 ^ 32 ∧
    (a { drv0 with ready := false }).ready = false ∧
    ((a { drv0 with count := 0 }).ready = true ∧ (a { drv0 with count := 0 }).count = 0) := by decide
/-- The last block in range, and one block beyond it; not ready; write-protected. -/
theorem witness_ReadAndWriteCheckRange : s1.dev.configurationValue ≠ 0 ∧ s1.msc.state = .idle ∧
    (s1.drvOf s1.msc.lun).ready = true ∧ (s1.drvOf s1.msc.lun).writeProtect = false ∧
    ((s1.drvOf s1.msc.lun).blockSize ≠ 0 ∧
      (996 : BitVec 32).toNat + (4 : BitVec 16).toNat ≤ (s1.drvOf s1.msc.lun).count) ∧
    ¬(997 : BitVec 32).toNat + (4 : BitVec 16).toNat ≤ (s1.drvOf s1.msc.lun).count ∧
    ((s1drv { drv0 with ready := false }).drvOf 0).ready = false ∧
    ((s1drv { drv0 with writeProtect := true }).drvOf 0).writeProtect = true := by decide
/-- Clause by clause: `BD_ARMED` with the word `ARM` would write, and with another; `BD_STALLED` the same;
`BD_RETURNED` of a full OUT packet, of an IN packet, and of neither. -/
theorem witness_DescriptorWordsAreStored : bdExists s1.cfg 1 .inp false = true ∧
    (false = s1.active 1 .inp ∧ true ≠ s1.armToggle 1 .inp) ∧
    (false = s1.armToggle 1 .inp ∧ s1.dev.configurationValue ≠ 0 ∧ (64 : BitVec 10).toNat ≤ s1.cfg.mps 1 .inp ∧
      (s1.epDir 1 .inp).halted = false ∧ ((s1.epDir 1 .inp).bd false).owner = .fw ∧
      (s1.epDir 1 .inp).unread false = false) ∧
    (63 : BitVec 10).toNat ≠ s1.cfg.mps 1 .inp ∧
    (false = s1.hw 1 .inp ∧ (64 : BitVec 10).toNat = s1.cfg.mps 1 .inp ∧ (1 : EpNum) ≠ 0 ∧
      s1.msc.state ≠ .dataIn ∧ s1.msc.state ≠ .dataOut) ∧
    (let b := (s1.epDir 1 .out).bd false
     bdExists s1.cfg 1 .out false = true ∧ false = s1.hw 1 .out ∧ b.owner = .hw ∧ b.stall = false ∧
      b.toggle = false ∧ (64 : BitVec 10).toNat ≤ b.count ∧ s1.memoryOk ∧
      b.addr + (64 : BitVec 10).toNat ≤ s1.cfg.memSize ∧ b.count < (65 : BitVec 10).toNat) ∧
    (let b := (inArmed.epDir 1 .inp).bd false
     bdExists inArmed.cfg 1 .inp false = true ∧ false = inArmed.hw 1 .inp ∧ b.owner = .hw ∧ b.stall = false ∧
      (13 : BitVec 10).toNat = b.count ∧ b.addr + (13 : BitVec 10).toNat ≤ inArmed.cfg.memSize ∧
      (12 : BitVec 10).toNat ≠ b.count) := by
  unfold State.memoryOk; decide

end Sys2Proof.Tests
end

section
/-! # The arbiter: `ARM`, `EP_INIT`, and completions passed out (40_arbiter.md R100, R112, R114)

Each command has one lemma for what it answers. The three statements are settled from them at the end. -/

namespace Sys2Proof.Machine

/-! ## The configuration gate and the result of `ARM` -/

theorem State.gated_iff (s : State) (e : EpNum) :
    s.gated e = true ↔ e ≠ 0 ∧ s.dev.configurationValue = 0 := by
  simp [State.gated]

section
variable {s : State} {e : EpNum} {d : Dir} {n : Nat}

theorem armResult_gated (hg : s.gated e = true) : armResult s e d n = .errNotConfigured := by
  simp [armResult, hg]

theorem armResult_tooLong (hg : ¬s.gated e = true) (hn : n > s.cfg.mps e d) :
    armResult s e d n = .errArg := by
  simp [armResult, hg, hn]

theorem armResult_halted (hg : ¬s.gated e = true) (hn : n ≤ s.cfg.mps e d)
    (hh : (s.epDir e d).halted = true) : armResult s e d n = .errHalted := by
  simp [armResult, hg, Nat.not_lt.2 hn, hh]

theorem armResult_owned (hg : ¬s.gated e = true) (hn : n ≤ s.cfg.mps e d)
    (hh : (s.epDir e d).halted = false)
    (ho : ((s.epDir e d).bd (s.active e d)).owner = .hw ∨ (s.epDir e d).unread (s.active e d) = true) :
    armResult s e d n = .errOwner := by
  simp [armResult, hg, Nat.not_lt.2 hn, hh, ho]

theorem armResult_free (hg : ¬s.gated e = true) (hn : n ≤ s.cfg.mps e d)
    (hh : (s.epDir e d).halted = false) (ho : ((s.epDir e d).bd (s.active e d)).owner = .fw)
    (hu : (s.epDir e d).unread (s.active e d) = false) : armResult s e d n = .ok := by
  simp [armResult, hg, Nat.not_lt.2 hn, hh, ho, hu]

/-! ## `ARM` given as a command -/

theorem exec_arm_outOfTable (addr : Nat) (he : s.cfg.nEp ≤ e.val) :
    exec (.arm e d addr n) s = .refused .endpointOutOfTable := if_pos he

theorem exec_arm_inTable (addr : Nat) (he : e.val < s.cfg.nEp) :
    exec (.arm e d addr n) s = answerCode (armIn s e d addr n) (armResult s e d n) :=
  if_neg (Nat.not_le.2 he)

/-- A result other than `OK` is all that an `ARM` leaves (30_encoding.md R91). -/
theorem exec_arm_rejected {r : ResultCode} (addr : Nat) (he : e.val < s.cfg.nEp)
    (hr : armResult s e d n = r) (hne : r ≠ .ok) :
    exec (.arm e d addr n) s = .next (s.answer (.code r)) := by
  rw [exec_arm_inTable addr he, armIn, hr, if_neg hne]
  rfl

theorem exec_arm_ok (addr : Nat) (he : e.val < s.cfg.nEp) (hr : armResult s e d n = .ok) :
    exec (.arm e d addr n) s = .next ((armStore s e d addr n).answer (.code .ok)) := by
  rw [exec_arm_inTable addr he, armIn, hr, if_pos rfl]
  rfl

end

/-! ## What an accepted `ARM` writes -/

/-- The index of the descriptor to arm next, replaced. -/
def EpDir.setActive (x : EpDir) (i : Bool) : EpDir := { x with activeIdx := i }

section
variable (x : EpDir) (i j : Bool)

@[simp] theorem EpDir.setActive_activeIdx : (x.setActive i).activeIdx = i := rfl
@[simp] theorem EpDir.setActive_bd : (x.setActive i).bd j = x.bd j := rfl
@[simp] theorem EpDir.setActive_unread : (x.setActive i).unread j = x.unread j := rfl
@[simp] theorem EpDir.setActive_rearmed : (x.setActive i).rearmed j = x.rearmed j := rfl
@[simp] theorem EpDir.setActive_halted : (x.setActive i).halted = x.halted := rfl
@[simp] theorem EpDir.setActive_nextToggle : (x.setActive i).nextToggle = x.nextToggle := rfl
@[simp] theorem EpDir.setActive_hwIdx : (x.setActive i).hwIdx = x.hwIdx := rfl
@[simp] theorem EpDir.setActive_rdIdx : (x.setActive i).rdIdx = x.rdIdx := rfl

end

section
variable (s : State) (e : EpNum) (d : Dir) (addr n : Nat)

theorem armStore_epDir_ne {e' : EpNum} {d' : Dir} (h : e' ≠ e ∨ d' ≠ d) :
    (armStore s e d addr n).epDir e' d' = s.epDir e' d' := State.onDir_epDir_ne _ _ _ _ h

/-- The index to arm next is the one field that depends on double buffering. -/
theorem armStore_epDir_eq_setActive : (armStore s e d addr n).epDir e d =
    (((s.epDir e d).setBd (s.active e d) ⟨addr, n, .hw, s.armToggle e d, false⟩).setRearmed
      (s.active e d) true).setActive
        (if s.cfg.pingpong e d then !s.active e d else (s.epDir e d).activeIdx) := by
  rw [armStore_epDir, State.pp_eq]
  cases s.cfg.pingpong e d
  · cases s.active e d <;> rfl
  · rfl

end

/-! ## `EP_INIT` -/

@[simp] theorem EpDir.init_bd (x : EpDir) (k : Bool) :
    x.init.bd k = { x.bd k with stall := false, owner := .fw } := by
  have hb : ∀ b : Desc, { b.giveBack with stall := false } = { b with stall := false, owner := .fw } := by
    rintro ⟨a, c, o, t, st⟩
    cases o <;> rfl
  cases k <;> exact hb _
@[simp] theorem EpDir.init_unread (x : EpDir) (k : Bool) : x.init.unread k = false := by cases k <;> rfl
@[simp] theorem EpDir.init_halted (x : EpDir) : x.init.halted = false := rfl
@[simp] theorem EpDir.init_nextToggle (x : EpDir) : x.init.nextToggle = false := rfl
@[simp] theorem EpDir.init_activeIdx (x : EpDir) : x.init.activeIdx = false := rfl
@[simp] theorem EpDir.init_hwIdx (x : EpDir) : x.init.hwIdx = false := rfl
@[simp] theorem EpDir.init_rdIdx (x : EpDir) : x.init.rdIdx = false := rfl

@[simp] theorem EpDir.setBd_false_bd_true (x : EpDir) (b : Desc) : (x.setBd false b).bd true = x.bd true :=
  x.setBd_bd_other false b

/-- The state of `EP_INIT` before it arms endpoint 0 OUT. -/
def initEndpoints (s : State) : State :=
  ((s.setEps (tabulate16 fun e => ⟨(s.epDir e .out).init, (s.epDir e .inp).init⟩)).setTcq []).setHold false

@[simp] theorem initEndpoints_cfg (s : State) : (initEndpoints s).cfg = s.cfg := rfl

@[simp] theorem initEndpoints_epDir (s : State) (e : EpNum) (d : Dir) :
    (initEndpoints s).epDir e d = (s.epDir e d).init := by
  rw [initEndpoints, State.setHold_epDir, State.setTcq_epDir, State.setEps_epDir]
  cases d <;> rfl

@[simp] theorem initEndpoints_active (s : State) (e : EpNum) (d : Dir) :
    (initEndpoints s).active e d = false := by
  simp [State.active]

theorem initEndpoints_clear (s : State) (e : EpNum) (d : Dir) : (initEndpoints s).clear e d := by
  exact ⟨by simp, (State.quiet_iff ..).2 fun j _ => by simp⟩

/-- Every direction is clear after the initialization, so the arm of endpoint 0 OUT succeeds. -/
theorem epInit_eq_armStore (s : State) :
    epInit s = armStore (initEndpoints s) 0 .out (s.cfg.epbuf 0 .out false) s.cfg.mps0 :=
  armIn_clear _ (initEndpoints_clear s 0 .out) (State.gated_zero _) (Nat.le_refl _)

theorem epInit_epDir_zero_out (s : State) : (epInit s).epDir 0 .out =
    (((s.epDir 0 .out).init.setBd false
      ⟨s.cfg.epbuf 0 .out false, s.cfg.mps0, .hw, false, false⟩).setRearmed false true).setActive
        (s.cfg.pingpong 0 .out) := by
  have htog : (initEndpoints s).armToggle 0 .out = false := by
    rw [State.armToggle_quiet (initEndpoints_clear s 0 .out).2]; simp
  rw [epInit_eq_armStore, armStore_epDir_eq_setActive, htog]
  simp

theorem epInit_epDir_ne (s : State) {e : EpNum} {d : Dir} (h : e ≠ 0 ∨ d ≠ .out) :
    (epInit s).epDir e d = (s.epDir e d).init := by
  rw [epInit_eq_armStore, armStore_epDir_ne _ _ _ _ _ h, initEndpoints_epDir]

theorem epInit_frame (s : State) :
    epInit s = { s with eps := (epInit s).eps, tcq := [], ep0Hold := false } :=
  armIn_frame (initEndpoints s) ..

@[simp] theorem epInit_tcq (s : State) : (epInit s).tcq = [] := by rw [epInit_frame]
@[simp] theorem epInit_ep0Hold (s : State) : (epInit s).ep0Hold = false := by rw [epInit_frame]
@[simp] theorem epInit_mem (s : State) : (epInit s).mem = s.mem := by rw [epInit_frame]

theorem exec_epInit (s : State) : exec .epInit s = .next ((epInit s).answer (.code .ok)) := rfl

/-! ## Consuming the head of `TCQ` -/

/-- With the mask open, `EV_TC` of the head hands the head's descriptor to the handler (R107). -/
theorem exec_evTc_head {s : State} {t : Tc} {rest : List Tc} (hirq : s.tcIrqEn = true)
    (hq : s.tcq = t :: rest) : exec (.evTc t) s =
      handle (consumed s t rest) t ((s.epDir t.e t.d).bd (s.rd t.e t.d)).count
        ((s.epDir t.e t.d).bd (s.rd t.e t.d)).addr := by
  have hexec : exec (.evTc t) s = consumeTc t s := rfl
  simp [hexec, consumeTc, takeHead, hirq, hq]

theorem exec_extTc_eq_evTc (s : State) (e : EpNum) {p : Pid} (hp : p ≠ .setup) :
    exec (.extTc e p.dir) s = exec (.evTc ⟨e, p⟩) s := by
  cases p with
  | setup => exact absurd rfl hp
  | out => rfl
  | inp => rfl

/-- A record of neither endpoint 0 nor the transport selects no handler of the block (R114). -/
theorem handle_external {s : State} {t : Tc} (n buf : Nat) (he : t.e ≠ 0) (hm : s.isMsc t.e t.d = false) :
    handle s t n buf = .next (s.emit (.externalTc t.e t.d t.pid n)) := by
  have hout : ¬(t.d = .out ∧ t.e = s.cfg.mscOut) := fun ⟨hd, ho⟩ => by simp [hd, ho] at hm
  have hinp : ¬(t.d = .inp ∧ t.e = s.cfg.mscIn) := fun ⟨hd, hi⟩ => by simp [hd, hi] at hm
  rw [handle, if_neg he, if_neg hout, if_neg hinp]

/-! ## The statements -/

/-- Settles O16: each result code by the lemma of its case; an accepted `ARM` leaves `armStore`. -/
theorem armOffersDescriptor : Obligations.ArmOffersDescriptor := by
  unfold Obligations.ArmOffersDescriptor
  intro s e d addr n
  dsimp only
  rw [← State.gated_iff]
  refine ⟨exec_arm_outOfTable addr,
    fun he hg => exec_arm_rejected addr he (armResult_gated hg) (by decide),
    fun he hg hn => exec_arm_rejected addr he (armResult_tooLong hg hn) (by decide),
    fun he hg hn hh => exec_arm_rejected addr he (armResult_halted hg hn hh) (by decide),
    fun he hg hn hh ho => exec_arm_rejected addr he (armResult_owned hg hn hh ho) (by decide),
    fun he hg hn hh ho hu => ⟨_, exec_arm_ok addr he (armResult_free hg hn hh ho hu), ?_⟩⟩
  simp only [State.answer_epDir, armStore_epDir_eq_setActive]
  refine ⟨by simp [State.armToggle], by simp, by simp [hh], by simp, by simp, by simp, by simp, by simp,
    fun e' d' h => ?_, fun _ => rfl, rfl⟩
  rw [State.answer_epDir, armStore_epDir_ne s e d addr n h]

/-- Settles O21: the initialization makes every direction clear, and then offers endpoint 0 OUT. -/
theorem epInitResetsEndpoints : Obligations.EpInitResetsEndpoints := by
  unfold Obligations.EpInitResetsEndpoints
  intro s
  refine ⟨_, exec_epInit s, ?_⟩
  simp only [State.answer_epDir]
  have hzero := epInit_epDir_zero_out s
  refine ⟨fun e d => ?_, fun e d h => ?_, by simp [hzero], by simp [hzero], by simp [hzero],
    by simp, by simp, fun a => by simp [State.byte], ?_⟩
  · by_cases h : e ≠ 0 ∨ d ≠ .out
    · simp [epInit_epDir_ne s h]
    · obtain ⟨rfl, rfl⟩ : e = 0 ∧ d = .out := by simpa using h
      simp [hzero]
  · have hne : e ≠ 0 ∨ d ≠ .out := h.imp_right fun hd => by simp [hd]
    simp [epInit_epDir_ne s hne]
  · rw [epInit_frame]; rfl

/-- Settles O42: both rows consume the head (`ReadOnce`), and the record selects no handler. -/
theorem externalCompletionIsPassedOut : Obligations.ExternalCompletionIsPassedOut := by
  unfold Obligations.ExternalCompletionIsPassedOut
  intro s e p rest hirq hq hp he hm
  have hev := (exec_evTc_head hirq hq).trans (handle_external (s := consumed s ⟨e, p⟩ rest) _ _ he hm)
  obtain ⟨htog, hread, hother, -, -, hbd, hrd, hhw, hact, hhalt⟩ := consumed_readOnce s ⟨e, p⟩ rest hp
  refine ⟨_, hev, (exec_extTc_eq_evTc s e hp).trans hev, rfl, ?_, ?_, fun _ => rfl, rfl⟩
  · simp only [State.emit_epDir]
    exact ⟨htog, hread, hother, hbd, hrd, hhw, hact, hhalt⟩
  · intro e' d' h
    rw [State.emit_epDir]
    exact consumed_epDir_ne s ⟨e, p⟩ rest h

end Sys2Proof.Machine
end

section
/-! # The Control Transfer Engine: dispositions outside `SETUP_RECEIVED` (41_control_engine.md R141)

The four disposition commands are `dispose` of a `Disposition`. Each stands behind the gate `onRequest`, and each that
answers `OK` enters the stage `stageEntered` names, which is never `SETUP_RECEIVED`. -/

namespace Sys2Proof.Machine

/-! ## The engine's state after the operations a disposition uses -/

@[simp] theorem armIn_cteState (s : State) (e : EpNum) (d : Dir) (a n : Nat) :
    (armIn s e d a n).cteState = s.cteState := by rw [armIn_frame]

@[simp] theorem armEp0Out_cteState (s : State) : (armEp0Out s).cteState = s.cteState := by simp [armEp0Out_eq]

@[simp] theorem armEp0Zlp_cteState (s : State) : (armEp0Zlp s).cteState = s.cteState := by simp [armEp0Zlp_eq]

theorem sendChunk_cteState {s t : State} (h : sendChunk s = .next t) : t.cteState = s.cteState := by
  obtain ⟨u, hu, hnext⟩ := thenRun_next h
  cases hnext
  simp [copyMem_next hu]

@[simp] theorem acceptBody_cteState (s : State) (cb : Option Nat) : (acceptBody s cb).cteState = .status := by
  simp [acceptBody]

theorem controlReturnBody_cteState {s t : State} {ptr avail req : Nat}
    (h : controlReturnBody s ptr avail req = .next t) : t.cteState = .dataIn := by
  obtain ⟨u, hu, hnext⟩ := thenRun_next h
  cases hnext
  simp [sendChunk_cteState hu]

@[simp] theorem receiveBody_cteState (s : State) (buf expected cb : Nat) :
    (receiveBody s buf expected cb).cteState = if expected = 0 then .status else .dataOut := by
  by_cases h : expected = 0 <;> simp [receiveBody, h]

@[simp] theorem raise_unrecognizedRequest_cteState (s : State) (n : Nat) :
    (raise s (.unrecognizedRequest n)).cteState = .idle := rfl

/-! ## The gate, and the answer of a command -/

theorem onRequest_outside {s : State} (h : s.cteState ≠ .setupReceived) (f : Res) :
    onRequest s f = .next (s.answer (.code .errState)) := if_pos h

theorem answerCode_next {s t : State} {r : ResultCode} (h : answerCode s r = .next t) :
    t = s.answer (.code r) := by cases h; rfl

/-- A command that left the reply `OK` answered `OK`. -/
theorem answerCode_reply_ok {s t : State} {r : ResultCode} (h : answerCode s r = .next t)
    (hok : t.reply = some (.code .ok)) : r = .ok := by
  rw [answerCode_next h] at hok
  simpa using hok

/-- Behind the gate, `OK` is the answer of the command that follows it. -/
theorem onRequest_reply_ok {s t : State} {f : Res} (h : onRequest s f = .next t)
    (hok : t.reply = some (.code .ok)) : f = .next t := by
  unfold onRequest at h
  split at h
  · cases answerCode_reply_ok h hok
  · exact h

/-- A command that answers `ERR_ARG` under `c` and left the reply `OK` ran because `c` failed. -/
theorem errArg_reply_ok {s t : State} {c : Prop} [Decidable c] {f : Res}
    (h : (if c then answerCode s .errArg else f) = .next t) (hok : t.reply = some (.code .ok)) : f = .next t := by
  split at h
  · cases answerCode_reply_ok h hok
  · exact h

/-! ## Dispositions -/

/-- The stage a disposition answered `OK` enters (R123, R129, R134, R135). -/
def stageEntered : Disposition → CteState
  | .controlReturn _ _ req => if req = 0 then .status else .dataIn
  | .receive _ expected _ => if expected = 0 then .status else .dataOut
  | .accept _ => .status
  | .reject => .idle

theorem stageEntered_ne_setupReceived (x : Disposition) : stageEntered x ≠ .setupReceived := by
  cases x with
  | controlReturn _ _ req => by_cases h : req = 0 <;> simp [stageEntered, h]
  | receive _ expected _ => by_cases h : expected = 0 <;> simp [stageEntered, h]
  | accept _ => simp [stageEntered]
  | reject => simp [stageEntered]

theorem dispose_outside {s : State} (x : Disposition) (h : s.cteState ≠ .setupReceived) :
    dispose x s = .next (s.answer (.code .errState)) := by
  cases x <;> exact onRequest_outside h _

theorem dispose_ok_cteState {s t : State} {x : Disposition} (h : dispose x s = .next t)
    (hok : t.reply = some (.code .ok)) : t.cteState = stageEntered x := by
  cases x with
  | controlReturn ptr avail req =>
    have hrun := errArg_reply_ok (onRequest_reply_ok h hok) hok
    split at hrun
    · next hreq => simp [answerCode_next hrun, stageEntered, hreq]
    · next hreq =>
      obtain ⟨u, hu, hans⟩ := thenRun_next hrun
      simp [answerCode_next hans, controlReturnBody_cteState hu, stageEntered, hreq]
  | receive buf expected cb =>
    have hrun := errArg_reply_ok (onRequest_reply_ok h hok) hok
    simp [answerCode_next hrun, stageEntered]
  | accept cb =>
    have hrun := onRequest_reply_ok h hok
    simp [answerCode_next hrun, stageEntered]
  | reject =>
    have hrun := onRequest_reply_ok h hok
    simp [answerCode_next hrun, stageEntered]

/-- The disposition commands are `dispose` of the four dispositions. -/
theorem exec_eq_dispose {i : Instr}
    (hi : (∃ p a r, i = .startControlReturn p a r) ∨ (∃ b x k, i = .startReceive b x k) ∨ (∃ k, i = .accept k) ∨
      i = .reject) : ∃ x, ∀ s, exec i s = dispose x s := by
  obtain ⟨p, a, r, rfl⟩ | ⟨b, n, k, rfl⟩ | ⟨k, rfl⟩ | rfl := hi
  · exact ⟨.controlReturn p a r, fun _ => rfl⟩
  · exact ⟨.receive b n k, fun _ => rfl⟩
  · exact ⟨.accept k, fun _ => rfl⟩
  · exact ⟨.reject, fun _ => rfl⟩

/-! ## The device-state commands -/

theorem exec_devSetAddress_outside {s : State} (a : Nat) (h : s.cteState ≠ .setupReceived) :
    exec (.devSetAddress a) s = .next (s.answer (.code .errState)) := by
  have hexec : exec (.devSetAddress a) s = answerCode (setAddressBody s a) (setAddressResult s a) := rfl
  have hr : setAddressResult s a = .errState := if_pos h
  simp [hexec, setAddressBody, hr, answerCode]

theorem exec_devSetConfig_outside {s : State} (v : Nat) (h : s.cteState ≠ .setupReceived) :
    exec (.devSetConfig v) s = .next (s.answer (.code .errState)) := by
  have hexec : exec (.devSetConfig v) s = answerCode (setConfigBody s v) (setConfigResult s v) := rfl
  have hr : setConfigResult s v = .errState := if_pos h
  simp [hexec, setConfigBody, hr, answerCode]

/-! ## The statement -/

/-- Settles O26: the gate refuses outside `SETUP_RECEIVED`, and a disposition answered `OK` has left it for
`stageEntered`, so that the gate refuses the second one. -/
theorem dispositionOutsideSetupReceived : Obligations.DispositionOutsideSetupReceived := by
  unfold Obligations.DispositionOutsideSetupReceived
  refine ⟨fun s i hs hi => ?_, fun s t i j hi hj hnext hok => ?_⟩
  · obtain hi | ⟨a, rfl⟩ | ⟨v, rfl⟩ := hi
    · obtain ⟨x, hx⟩ := exec_eq_dispose hi
      rw [hx, dispose_outside x hs]
    · exact exec_devSetAddress_outside a hs
    · exact exec_devSetConfig_outside v hs
  · obtain ⟨x, hx⟩ := exec_eq_dispose hi
    obtain ⟨y, hy⟩ := exec_eq_dispose hj
    have hstage : t.cteState = stageEntered x := dispose_ok_cteState (hx s ▸ hnext) hok
    have hleft : t.cteState ≠ .setupReceived := hstage ▸ stageEntered_ne_setupReceived x
    exact ⟨hleft, by rw [hy, dispose_outside y hleft]⟩

end Sys2Proof.Machine
end

section
/-! # The codec (30_encoding.md): a record is decoded operand by operand, field by field

The formats in the order of `Port`. For each, what its decoder makes of the bytes its encoder wrote; for the formats
without padding also that no bit of the record is lost. -/

namespace Sys2Proof

/-! ## Decoding before and after the check of the operands -/

theorem decode_eq_some {c : Config} {r : InRecord} {i : Instr} :
    decode c r = some i ↔ decodeRaw c r = some i ∧ WellFormed c i = true := by
  unfold decode
  cases decodeRaw c r with
  | none => simp
  | some j => by_cases hj : WellFormed c j = true <;> simp [hj] <;> rintro rfl <;> simp [hj]

/-! ## The format `OP` -/

@[simp] theorem readNat_natBytes_nil (n : Nat) : readNat (natBytes n) = some (n, []) := by
  simpa using readNat_natBytes n []

@[simp] theorem readBytes_all (b : List Byte) : readBytes b.length b = some (b, []) := by
  simpa using readBytes_append b []

@[simp] theorem addressOfByte_setWidth (a : BitVec 7) : addressOfByte (a.setWidth 8) = some a := by
  revert a; decide

theorem hwOutOf_setup (payload : List Byte) : hwOutOf 0x20#8 payload = some (.hwSetup payload) := rfl

/-! ## The sixteen- and thirty-two-bit fields -/

theorem extractLsb'_append_high {v w start : Nat} (hi : BitVec v) (lo : BitVec w) (len : Nat) (h : w ≤ start) :
    (hi ++ lo).extractLsb' start len = hi.extractLsb' (start - w) len := by
  rw [BitVec.extractLsb'_append_eq_ite, dif_neg (Nat.not_lt.2 h)]

/-- The two bytes of a sixteen-bit field are those it was read from. -/
theorem le16_le16At (b : List Byte) (i : Nat) : le16 (le16At b i) = [byteAt b i, byteAt b (i + 1)] := by
  have hlow : (le16At b i).extractLsb' 0 8 = byteAt b i := BitVec.extractLsb'_append_eq_right
  have hhigh : (le16At b i).extractLsb' 8 8 = byteAt b (i + 1) := BitVec.extractLsb'_append_eq_left
  rw [le16, hlow, hhigh]

/-- The four bytes of a thirty-two-bit field are those it was read from. -/
theorem le32_le32At (b : List Byte) (i : Nat) :
    le32 (le32At b i) = [byteAt b i, byteAt b (i + 1), byteAt b (i + 2), byteAt b (i + 3)] := by
  have h0 : (le32At b i).extractLsb' 0 8 = byteAt b i := BitVec.extractLsb'_append_eq_right
  have h1 : (le32At b i).extractLsb' 8 8 = byteAt b (i + 1) :=
    (extractLsb'_append_high _ (byteAt b i) 8 (Nat.le_refl 8)).trans BitVec.extractLsb'_append_eq_right
  have h2 : (le32At b i).extractLsb' 16 8 = byteAt b (i + 2) :=
    (extractLsb'_append_high _ (byteAt b i) 8 (by decide)).trans
      ((extractLsb'_append_high _ (byteAt b (i + 1)) 8 (Nat.le_refl 8)).trans BitVec.extractLsb'_append_eq_right)
  have h3 : (le32At b i).extractLsb' 24 8 = byteAt b (i + 3) :=
    (extractLsb'_append_high _ (byteAt b i) 8 (by decide)).trans
      ((extractLsb'_append_high _ (byteAt b (i + 1)) 8 (by decide)).trans BitVec.extractLsb'_append_eq_left)
  rw [le32, h0, h1, h2, h3]

/-- The big-endian fields are the little-endian ones read from the other end. -/
theorem be16At_be16 (v : BitVec 16) : be16At (be16 v) 0 = v := le16At_le16 v

theorem be32At_be32 (v : BitVec 32) : be32At (be32 v) 0 = v := le32At_le32 v

/-! ## The format `SETUP8` -/

@[simp] theorem SetupPacket.length_bytes (p : SetupPacket) : p.bytes.length = 8 := rfl

@[simp] theorem SetupPacket.parse_bytes (p : SetupPacket) : SetupPacket.parse p.bytes = p := by
  obtain ⟨t, q, v, x, n⟩ := p
  simp only [SetupPacket.parse, SetupPacket.mk.injEq]
  exact ⟨rfl, rfl, le16At_le16 v, le16At_le16 x, le16At_le16 n⟩

theorem SetupPacket.bytes_parse {b : List Byte} (h : b.length = 8) : (SetupPacket.parse b).bytes = b := by
  match b, h with
  | [b0, b1, b2, b3, b4, b5, b6, b7], _ => simp [SetupPacket.parse, SetupPacket.bytes, le16_le16At, byteAt]

theorem ReqCode.isOf_iff (x : ReqCode) (p : SetupPacket) :
    x.isOf p = true ↔ p.bmRequestType = x.bmRequestType ∧ p.bRequest = x.bRequest := by
  simp [ReqCode.isOf]

/-- A packet that has the codes of one row of `REQ` is one of no other row. -/
theorem ReqCode.isOf_mk (x y : ReqCode) (v w n : BitVec 16) :
    x.isOf ⟨y.bmRequestType, y.bRequest, v, w, n⟩ = true ↔ y = x := by
  cases x; cases y; simp [ReqCode.isOf]

theorem decodeRaw_requestRecord (c : Config) (x : ReqCode) (v w n : BitVec 16) :
    decodeRaw c (requestRecord x v w n) = some (instrOfRequest c ⟨x.bmRequestType, x.bRequest, v, w, n⟩) := by
  simp [decodeRaw, requestRecord]

/-- A packet no row of `REQ` matches is `SETUP` at the dispatcher. -/
theorem instrOfRequest_unknown {c : Config} {p : SetupPacket} (h : isKnownRequest c p = false) :
    instrOfRequest c p = .setup .request p := by
  simp only [isKnownRequest, Bool.or_eq_false_iff, Bool.and_eq_false_iff, beq_eq_false_iff_ne] at h
  unfold instrOfRequest
  grind

/-! ## The format `TC` -/

theorem decodeRaw_tc {c : Config} {t : Tc} (h : t.pid = .setup → t.e = 0) :
    decodeRaw c ⟨.tc, [tcByte t]⟩ = some (instrOfTc c t) := by
  simp [decodeRaw, byteAt, tcOfByte_tcByte t h]

/-! ## What a good configuration gives -/

theorem Config.wf_tablesOk {c : Config} (h : c.wf = true) : c.tablesOk = true := by
  simp only [Config.wf, Bool.and_eq_true] at h
  exact h.2

theorem Config.wf_reqNodup {c : Config} (h : c.wf = true) : c.req.codes.Nodup := by
  have := Config.wf_tablesOk h
  simp only [Config.tablesOk, Bool.and_eq_true, decide_eq_true_eq] at this
  exact this.1.1.2

theorem Config.wf_scsiNodup {c : Config} (h : c.wf = true) : (c.scsiSet.map Prod.fst).Nodup := by
  have := Config.wf_tablesOk h
  simp only [Config.tablesOk, Bool.and_eq_true, decide_eq_true_eq] at this
  exact this.1.1.1.1

/-- `SCSI_SET` read backwards and forwards. -/
theorem Config.scsiKind_scsiCode {c : Config} (h : c.wf = true) {k : ScsiKind} {op : Byte}
    (hk : c.scsiCode k = some op) : c.scsiKind op = some k := by
  simp only [Config.scsiCode, Option.map_eq_some_iff] at hk
  obtain ⟨x, hx, rfl⟩ := hk
  have hxk : x.2 = k := by simpa using List.find?_some hx
  have hfind : (c.scsiSet.find? fun y => y.1 == x.1) = some x := by
    cases hy : c.scsiSet.find? fun y => y.1 == x.1 with
    | none => exact absurd (List.find?_eq_none.1 hy x (List.mem_of_find?_eq_some hx)) (by simp)
    | some y =>
      have hyx : y.1 = x.1 := by simpa using List.find?_some hy
      exact congrArg some (List.inj_on_of_nodup_map (Config.wf_scsiNodup h) (List.mem_of_find?_eq_some hy)
        (List.mem_of_find?_eq_some hx) hyx)
  simp [Config.scsiKind, hfind, hxk]

/-! ## The rows of each format -/

/-- The request rows: no packet of one row is of an earlier one, as no two rows have the same codes. -/
theorem instrOfRequest_known {c : Config} (h : c.wf = true) :
    (∀ t x l n, instrOfRequest c ⟨c.req.getDescriptor.bmRequestType, c.req.getDescriptor.bRequest, t ++ x, l, n⟩ =
      .getDescriptor t x l n) ∧
    (∀ v x, instrOfRequest c ⟨c.req.setAddress.bmRequestType, c.req.setAddress.bRequest, v, x, 0⟩ = .setAddress v x) ∧
    (∀ v x, instrOfRequest c ⟨c.req.setConfiguration.bmRequestType, c.req.setConfiguration.bRequest, v, x, 0⟩ =
      .setConfiguration v x) ∧
    (∀ x, instrOfRequest c ⟨c.req.clearFeature.bmRequestType, c.req.clearFeature.bRequest, c.req.endpointHalt, x, 0⟩ =
      .clearFeatureEndpointHalt x) ∧
    (∀ x, instrOfRequest c ⟨c.req.setFeature.bmRequestType, c.req.setFeature.bRequest, c.req.endpointHalt, x, 0⟩ =
      .setFeatureEndpointHalt x) ∧
    instrOfRequest c ⟨c.req.mscReset.bmRequestType, c.req.mscReset.bRequest, 0, c.mscIface.setWidth 16, 0⟩ =
      .bulkOnlyMassStorageReset ∧
    ∀ v, instrOfRequest c ⟨c.req.getMaxLun.bmRequestType, c.req.getMaxLun.bRequest, v, c.mscIface.setWidth 16, 1⟩ =
      .getMaxLun v := by
  have hnd := Config.wf_reqNodup h
  simp only [ReqTable.codes, List.nodup_cons, List.mem_cons, not_or, List.not_mem_nil] at hnd
  have hhigh : ∀ t x : Byte, BitVec.extractLsb' 8 8 (t ++ x) = t := fun _ _ => BitVec.extractLsb'_append_eq_left
  have hlow : ∀ t x : Byte, BitVec.extractLsb' 0 8 (t ++ x) = x := fun _ _ => BitVec.extractLsb'_append_eq_right
  simp only [instrOfRequest, ReqCode.isOf_mk]
  refine ⟨fun t x l n => ?_, ?_, ?_, ?_, ?_, ?_, ?_⟩
  · simp
    exact ⟨hhigh t x, hlow t x⟩
  all_goals simp [Ne.symm, hnd]

/-- The control word of a `BDCTL` record. -/
def ctlWord (owner toggle stall : Bool) (n : BitVec 10) : BitVec 16 :=
  (BitVec.ofBool owner ++ BitVec.ofBool toggle ++ BitVec.ofBool stall ++ 0#3 ++ n : BitVec (1 + 1 + 1 + 3 + 10))

theorem ctlWord_count (o t st : Bool) (n : BitVec 10) : (ctlWord o t st n).extractLsb' 0 10 = n :=
  BitVec.extractLsb'_append_eq_right

/-- A flag of the control word is a bit of its first six. -/
theorem ctlWord_flag (o t st : Bool) (n : BitVec 10) (i : Nat) : (ctlWord o t st n).getLsbD (10 + i) =
    (BitVec.ofBool o ++ BitVec.ofBool t ++ BitVec.ofBool st ++ 0#3).getLsbD i := by
  have h : (ctlWord o t st n).getLsbD (10 + i) = _ := BitVec.getLsbD_append
  simpa using h

theorem ctlWord_flags (o t st : Bool) (n : BitVec 10) : (ctlWord o t st n).getLsbD 15 = o ∧
    (ctlWord o t st n).getLsbD 14 = t ∧ (ctlWord o t st n).getLsbD 13 = st := by
  rw [ctlWord_flag o t st n 5, ctlWord_flag o t st n 4, ctlWord_flag o t st n 3]
  revert o t st
  decide

section
variable (e : EpNum) (d : Dir) (k t : Bool) (n : BitVec 10)

@[simp] theorem instrOfCtl_armed : instrOfCtl e d k (ctlWord true t false n) = some (.bdArmed e d k t n) := by
  obtain ⟨ho, ht, hst⟩ := ctlWord_flags true t false n
  rw [instrOfCtl, ho, ht, hst, ctlWord_count]

@[simp] theorem instrOfCtl_stalled : instrOfCtl e d k (ctlWord true false true n) = some (.bdStalled e d k n) := by
  obtain ⟨ho, ht, hst⟩ := ctlWord_flags true false true n
  rw [instrOfCtl, ho, ht, hst, ctlWord_count]
  rfl

@[simp] theorem instrOfCtl_returned :
    instrOfCtl e d k (ctlWord false t false n) = some (.bdReturned e d k t n) := by
  obtain ⟨ho, ht, hst⟩ := ctlWord_flags false t false n
  rw [instrOfCtl, ho, ht, hst, ctlWord_count]

end

theorem decodeRaw_bdRecord (c : Config) (e : EpNum) (d : Dir) (k o t st : Bool) (n : BitVec 10) :
    decodeRaw c (bdRecord e d k o t st n) = instrOfCtl e d k (ctlWord o t st n) := by
  have hread : read16 (bdRecord e d k o t st n).bytes = some (ctlWord o t st n, [epByte e d, boolByte k]) :=
    read16_le16 ..
  have hport : decodeRaw c (bdRecord e d k o t st n) = decodeBd (bdRecord e d k o t st n).bytes := rfl
  simp [hport, decodeBd, hread]

/-! ## The format `CDB` -/

/-- The command a kind of `SCSI_SET` is, with the fields of a command block. -/
def scsiFields (b : List Byte) : ScsiKind → ScsiCmd
  | .testUnitReady => .testUnitReady
  | .requestSense => .requestSense
  | .inquiry => .inquiry
  | .modeSense6 => .modeSense6
  | .startStopUnit => .startStopUnit ((byteAt b 4).getLsbD 0) ((byteAt b 4).getLsbD 1)
  | .readCapacity10 => .readCapacity10
  | .read10 => .read10 (be32At b 2) (be16At b 7)
  | .write10 => .write10 (be32At b 2) (be16At b 7)

theorem byteAt_bytes16At (b : List Byte) {i : Nat} (h : i < 16) :
    byteAt (bytes16At b 0).toList i = byteAt b i := by
  simp [byteAt, bytes16At, tabulate16, h]

theorem scsiOf_bytes16At (c : Config) (b : List Byte) : scsiOf c (bytes16At b 0) =
    ((c.scsiKind (byteAt b 0)).map (scsiFields b)).getD (.unknown (byteAt b 0)) := by
  have h32 : be32At (bytes16At b 0).toList 2 = be32At b 2 := by simp [be32At, byteAt_bytes16At]
  have h16 : be16At (bytes16At b 0).toList 7 = be16At b 7 := by simp [be16At, byteAt_bytes16At]
  simp only [scsiOf, byteAt_bytes16At b (by decide : 0 < 16), byteAt_bytes16At b (by decide : 4 < 16), h32, h16]
  cases c.scsiKind (byteAt b 0) with
  | none => rfl
  | some k => cases k <;> rfl

/-- A `CDB` record of a command that `SCSI_SET` has decodes to that command. -/
theorem decodeRaw_cdbRecord {c : Config} (h : c.wf = true) {k : ScsiKind} (hk : hasScsi c k = true) {b : List Byte}
    (hb : b.length ≤ 15) : decodeRaw c (cdbRecord c k b) =
      some (instrOfScsi (scsiFields ((c.scsiCode k).getD 0 :: b) k)) := by
  obtain ⟨op, hop⟩ := Option.isSome_iff_exists.1 hk
  have hkind : c.scsiKind op = some k := Config.scsiKind_scsiCode h hop
  have hlen : 1 ≤ (op :: b).length ∧ (op :: b).length ≤ 16 := by simp; omega
  have hraw : decodeRaw c ⟨.cdb, op :: b⟩ = some (instrOfScsi (scsiOf c (bytes16At (op :: b) 0))) := if_pos hlen
  have hbyte : byteAt (op :: b) 0 = op := rfl
  simp only [cdbRecord, hop, Option.getD_some, hraw, scsiOf_bytes16At, hbyte, hkind, Option.map_some]

theorem startStopByte_bits (s e : Bool) : (0#6 ++ BitVec.ofBool e ++ BitVec.ofBool s).getLsbD 0 = s ∧
    (0#6 ++ BitVec.ofBool e ++ BitVec.ofBool s).getLsbD 1 = e := by
  revert s e
  decide

/-! ## Every row -/

/-- Every row, before the check of its operands; the rows that are not listed are of the format `OP`. -/
theorem decodeRaw_encode {c : Config} {i : Instr} (h : c.wf = true) (hi : WellFormed c i = true) :
    decodeRaw c (encode c i) = some i := by
  have hreq := instrOfRequest_known h
  have hout := Machine.Config.wf_mscOut h
  have hin := Machine.Config.wf_mscIn h
  cases i
  case evTc t =>
    have ht : t.pid = .setup → t.e = 0 := of_decide_eq_true hi
    simp [encode, opRecord, decodeRaw, decodeOp, decodeOperands, byteAt, tcOfByte_tcByte t ht]
  case accept cb =>
    cases cb <;> simp [encode, opRecord, decodeRaw, decodeOp, decodeOperands, byteAt]
  case hwSetup payload =>
    simp [encode, opRecord, decodeRaw, decodeOp, decodeOperands, byteAt, hwOutOf_setup]
  case setupRequest p =>
    have hread : readBytes 8 p.bytes = some (p.bytes, []) := readBytes_all p.bytes
    have hraw : decodeRaw c (encode c (.setupRequest p)) = decodeOperands 0x80 p.bytes := rfl
    simp [hraw, decodeOperands, hread]
  case setup port p =>
    cases port with
    | wire => simp [encode, decodeRaw]
    | request =>
      have hu : isKnownRequest c p = false := by simpa [WellFormed] using hi
      simp [encode, decodeRaw, instrOfRequest_unknown hu]
  case cteSetup => exact decodeRaw_tc fun _ => rfl
  case cteOut => exact decodeRaw_tc fun _ => rfl
  case cteIn => exact decodeRaw_tc fun _ => rfl
  case mscOut => simp [encode, decodeRaw_tc, instrOfTc, hout.1]
  case mscIn => simp [encode, decodeRaw_tc, instrOfTc, hin.1]
  case extTc e d =>
    cases d <;> simp_all [encode, decodeRaw_tc, instrOfTc, WellFormed]
  case cbw packet => rfl
  case csw t r st =>
    have hlen : (cswBytes t r st).length = 13 := rfl
    have hsig : le32At (cswBytes t r st) 0 = cswSignature := le32At_le32 cswSignature
    have htag : le32At (cswBytes t r st) 4 = t := le32At_le32 t
    have hres : le32At (cswBytes t r st) 8 = r := le32At_le32 r
    have hst : byteAt (cswBytes t r st) 12 = st := rfl
    simp [encode, decodeRaw, hlen, hsig, htag, hres, hst]
  case getDescriptor => simp only [encode, decodeRaw_requestRecord, hreq]
  case setAddress => simp only [encode, decodeRaw_requestRecord, hreq]
  case setConfiguration => simp only [encode, decodeRaw_requestRecord, hreq]
  case clearFeatureEndpointHalt => simp only [encode, decodeRaw_requestRecord, hreq]
  case setFeatureEndpointHalt => simp only [encode, decodeRaw_requestRecord, hreq]
  case bulkOnlyMassStorageReset => simp only [encode, decodeRaw_requestRecord, hreq]
  case getMaxLun => simp only [encode, decodeRaw_requestRecord, hreq]
  case testUnitReady => exact decodeRaw_cdbRecord h hi (by decide)
  case requestSense => exact decodeRaw_cdbRecord h hi (by decide)
  case inquiry => exact decodeRaw_cdbRecord h hi (by decide)
  case modeSense6 => exact decodeRaw_cdbRecord h hi (by decide)
  case readCapacity10 => exact decodeRaw_cdbRecord h hi (by decide)
  case startStopUnit s e =>
    refine (decodeRaw_cdbRecord h hi (Nat.le_of_ble_eq_true rfl)).trans ?_
    have hbits := startStopByte_bits s e
    exact congrArg some (congrArg₂ Instr.startStopUnit hbits.1 hbits.2)
  case read10 l n =>
    refine (decodeRaw_cdbRecord h hi (Nat.le_of_ble_eq_true rfl)).trans ?_
    exact congrArg some (congrArg₂ Instr.read10 (be32At_be32 l) (be16At_be16 n))
  case write10 l n =>
    refine (decodeRaw_cdbRecord h hi (Nat.le_of_ble_eq_true rfl)).trans ?_
    exact congrArg some (congrArg₂ Instr.write10 (be32At_be32 l) (be16At_be16 n))
  case scsiUnknown o =>
    have hnone : c.scsiKind (byteAt [o, 0, 0, 0, 0, 0] 0) = none := by simpa [WellFormed, byteAt] using hi
    have hraw : decodeRaw c ⟨.cdb, [o, 0, 0, 0, 0, 0]⟩ =
        some (instrOfScsi (scsiOf c (bytes16At [o, 0, 0, 0, 0, 0] 0))) := rfl
    rw [encode, hraw, scsiOf_bytes16At, hnone]
    rfl
  case bdArmed e d k t n => simp [encode, decodeRaw_bdRecord]
  case bdStalled e d k n => simp [encode, decodeRaw_bdRecord]
  case bdReturned e d k t n => simp [encode, decodeRaw_bdRecord]
  all_goals simp [encode, opRecord, decodeRaw, decodeOp, decodeOperands, byteAt]

/-- Settles O2: `decodeRaw_encode`, and the check of the operands is the hypothesis. -/
theorem decodeOfEncode : Obligations.DecodeOfEncode := by
  unfold Obligations.DecodeOfEncode
  exact fun c i h hi => decode_eq_some.2 ⟨decodeRaw_encode h hi, hi⟩

/-! ## No bit of an unpadded record is lost -/

theorem tcByte_of_tcOfByte {b : Byte} {t : Tc} (h : tcOfByte b = some t) : tcByte t = b := by
  have hall : ∀ b : Byte, (tcOfByte b).all (fun t => tcByte t == b) = true := by decide
  simpa [h] using hall b

theorem setup_of_tcOfByte {b : Byte} {t : Tc} (h : tcOfByte b = some t) (ht : t.pid = .setup) : t.e = 0 := by
  have hall : ∀ b : Byte, (tcOfByte b).all (fun t => !(t.pid == .setup) || t.e == 0) = true := by decide
  have := hall b
  rw [h] at this
  simpa [ht] using this

theorem encode_instrOfTc {c : Config} {t : Tc} (h : t.pid = .setup → t.e = 0) :
    encode c (instrOfTc c t) = ⟨.tc, [tcByte t]⟩ := by
  obtain ⟨e, p⟩ := t
  unfold instrOfTc
  cases p with
  | setup => obtain rfl : e = 0 := h rfl; rfl
  | out =>
    dsimp only
    split
    · next h0 => rw [h0]; rfl
    · split
      · next hm => rw [hm]; rfl
      · rfl
  | inp =>
    dsimp only
    split
    · next h0 => rw [h0]; rfl
    · split
      · next hm => rw [hm]; rfl
      · rfl

theorem extractLsb'_append_self (v : BitVec 16) : (v.extractLsb' 8 8 ++ v.extractLsb' 0 8 : BitVec (8 + 8)) = v :=
  le16At_le16 v

/-- Whichever row of `REQ` a packet matches, the row keeps every field it does not fix. -/
theorem encode_instrOfRequest (c : Config) (p : SetupPacket) :
    encode c (instrOfRequest c p) = ⟨.setupRequest, p.bytes⟩ := by
  obtain ⟨t, q, v, x, n⟩ := p
  unfold instrOfRequest
  simp only [ReqCode.isOf_iff]
  split
  · next h => simp only [encode, requestRecord, extractLsb'_append_self, h]
  split
  · next h => simp only [encode, requestRecord, h]
  split
  · next h => simp only [encode, requestRecord, h]
  split
  · next h => simp only [encode, requestRecord, h]
  split
  · next h => simp only [encode, requestRecord, h]
  split
  · next h => simp only [encode, requestRecord, h]
  split
  · next h => simp only [encode, requestRecord, h]
  · rfl

theorem cswBytes_of_parsed {b : List Byte} (h : b.length = 13) (hsig : le32At b 0 = cswSignature) :
    cswBytes (le32At b 4) (le32At b 8) (byteAt b 12) = b := by
  rw [cswBytes, ← hsig]
  match b, h with
  | [b0, b1, b2, b3, b4, b5, b6, b7, b8, b9, b10, b11, b12], _ => simp [le32_le32At, byteAt]

/-- Settles O3: each unpadded format is read back byte for byte. -/
theorem encodeOfDecode : Obligations.EncodeOfDecode := by
  unfold Obligations.EncodeOfDecode
  rintro c ⟨port, b⟩ i h hport
  have hraw := (decode_eq_some.1 h).1
  obtain rfl | rfl | rfl | rfl | rfl := hport <;> simp only [decodeRaw] at hraw
  · split at hraw
    · next hlen =>
      obtain ⟨t, ht, rfl⟩ := Option.map_eq_some_iff.1 hraw
      obtain ⟨x, rfl⟩ := List.length_eq_one_iff.1 hlen
      rw [encode_instrOfTc (setup_of_tcOfByte ht), tcByte_of_tcOfByte ht]
      rfl
    · cases hraw
  · split at hraw
    · next hlen => cases hraw; rw [encode, SetupPacket.bytes_parse hlen]
    · cases hraw
  · split at hraw
    · next hlen => cases hraw; rw [encode_instrOfRequest, SetupPacket.bytes_parse hlen]
    · cases hraw
  · cases hraw; rfl
  · split at hraw
    · next hcsw => cases hraw; rw [encode, cswBytes_of_parsed hcsw.1 hcsw.2]
    · cases hraw

/-- Settles O4: each word is decoded under the fixed configuration. -/
theorem writtenWordsDecode : Obligations.WrittenWordsDecode := by
  unfold Obligations.WrittenWordsDecode
  decide

end Sys2Proof
end

section
/-! # What an instruction can do: the rules of the block and of the channel

`Rule i s t` lists, once, what one rule can make of a state when the instruction `i` runs it; `exec_ran` says that an
instruction is a run of such rules, and `step_keeps` that what every rule keeps, every step keeps. -/

namespace Sys2Proof.Machine

/-- The instructions that consume the record `x` of `TCQ`: `EV_TC`, the `TC` row `x` selects, and the two packets on the
wire that are consumed at once (30_encoding.md R94, R95). -/
def Consumes (c : Config) (i : Instr) (x : Tc) : Prop :=
  i = .evTc x ∨ (i = .cteSetup ∧ x = ⟨0, .setup⟩) ∨ (i = .cteOut ∧ x = ⟨0, .out⟩) ∨ (i = .cteIn ∧ x = ⟨0, .inp⟩) ∨
  (i = .mscOut ∧ x = ⟨c.mscOut, .out⟩) ∨ (i = .mscIn ∧ x = ⟨c.mscIn, .inp⟩) ∨
  (i = .extTc x.e .out ∧ x.pid = .out) ∨ (i = .extTc x.e .inp ∧ x.pid = .inp) ∨
  ((∃ p, i = .setup .wire p) ∧ x = ⟨0, .setup⟩) ∨ ((∃ b, i = .cbw b) ∧ x = ⟨c.mscOut, .out⟩)

/-- One rule, run by the instruction `i`. Where a rule belongs to some instructions only, it names them. -/
inductive Rule (i : Instr) (s : State) : State → Prop
  | answer (r : Reply) : Rule i s (s.answer r)
  | output (o : Output) : Rule i s (s.emit o)
  | handshake (w : WireEvent) : Rule i s (s.show w)
  | driverAnswer (l : Lun) (x : DrvAnswers)
      (hx : x.capacity = (s.drvOf l).capacity ∨ ∃ a n ok b k, i = .drvStartWrite l a n ok b x.capacity k) :
      Rule i s (s.setDrv l x)
  | mask (b : Bool) (hi : i = .critEnter ∨ i = .critExit) : Rule i s (s.setIrq b)
  | resetSignal (b : Bool) (hi : i = .busReset) : Rule i s (s.setBusReset b)
  | arm (e : EpNum) (d : Dir) (a n : Nat) (he : e.val < s.cfg.nEp) : Rule i s (armIn s e d a n)
  | setHalt (e : EpNum) (d : Dir) : Rule i s (setHaltIn s .command e d)
  | clearHalt {t : State} (e : EpNum) (d : Dir) (he : clearHaltResult s e = .ok)
      (h : clearHaltBody s e d = .next t) : Rule i s t
  | epInit (hi : i = .epInit) : Rule i s (epInit s)
  | accept (cb : Option Nat) (hs : s.cteState = .setupReceived) : Rule i s (acceptBody s cb)
  | controlReturn {t : State} (p a r : Nat) (hs : s.cteState = .setupReceived) (hr : 0 < r ∧ r ≤ 65535)
      (h : controlReturnBody s p a r = .next t) : Rule i s t
  | receive (b x k : Nat) (hs : s.cteState = .setupReceived) (hx : x ≤ 65535) : Rule i s (receiveBody s b x k)
  | reject (hs : s.cteState = .setupReceived) : Rule i s (rejectBody s 8)
  | holdAddress (a : Nat) : Rule i s (setAddressBody s a)
  | setConfig (v : Nat) (hi : (∃ v, i = .devSetConfig v) ∨ ∃ v x, i = .setConfiguration v x) :
      Rule i s (setConfigBody s v)
  | stackInit (hi : i = .stackInit) : Rule i s (stackInit s)
  | busReset (hi : i = .busReset) : Rule i s (busReset s)
  | blockReady {t : State} (ptr len : Nat) (h : execEvBlockReady ptr len s = .next t) : Rule i s t
  | readComplete {t : State} (ok : Bool) (h : execEvReadComplete ok s = .next t) : Rule i s t
  | writeDataHandled {t : State} (h : execEvWriteDataHandled s = .next t) : Rule i s t
  | writeComplete {t : State} (ok : Bool) (h : execEvWriteComplete ok s = .next t) : Rule i s t
  | mscReset (hc : s.configured = true) (hi : i = .mscReset ∨ i = .bulkOnlyMassStorageReset) :
      Rule i s (mscResetBody s)
  | haltCleared {t : State} (d : Dir) (hc : s.configured = true) (hd : ¬s.inDataPhase = true) (hn : s.msc.state ≠ .nrr)
      (h : haltCleared s d = .next t) : Rule i s t
  | sendCsw {t : State} (hc : s.configured = true) (hs : s.msc.state = .csw) (h : sendCsw s = .next t) : Rule i s t
  | command (cmd : ScsiCmd) (hc : s.configured = true) (hs : s.msc.state = .idle) : Rule i s (evalCmd cmd s).s
  | takeOut {t : State} (e : EpNum) (toggle : Bool) (b : List Byte) (hh : outHandshake s e toggle b.length = .ack)
      (h : takeOut s e b = .next t) : Rule i s t
  | sendIn (e : EpNum) (w : WireEvent) (hh : inHandshake s e = .ack) :
      Rule i s ((returnDesc s e .inp ((s.epDir e .inp).bd (s.hw e .inp)).count).show w)
  | takeSetup {t : State} (b : List Byte) (hh : setupHandshake s b.length = .ack) (h : takeSetup s b = .next t) :
      Rule i s t
  | takeHead {t : State} (x : Tc) (rest : List Tc) (hq : s.tcq = x :: rest) (hi : Consumes s.cfg i x)
      (h : takeHead s = .next t) : Rule i s t

/-- A run of rules of one instruction. -/
abbrev Ran (i : Instr) : State → State → Prop := Relation.ReflTransGen (Rule i)

/-- What every rule of an instruction keeps, the instruction keeps. -/
theorem Ran.keeps {i : Instr} {I : State → Prop} (hI : ∀ u v, Rule i u v → I u → I v) {s t : State} (h : Ran i s t)
    (hs : I s) : I t := by
  induction h with
  | refl => exact hs
  | tail _ hr ih => exact hI _ _ hr ih

/-! ## Runs of the parts of an instruction -/

section
variable {i : Instr} {s t u : State}

theorem Ran.rule (h : Rule i s t) : Ran i s t := .single h

theorem ran_answerCode {r : ResultCode} (hu : Ran i s u) (h : answerCode u r = .next t) : Ran i s t := by
  cases h
  exact hu.tail (.answer _)

theorem ran_answerOk {r : Res} (hr : ∀ u, r = .next u → Ran i s u) (h : answerOk r = .next t) : Ran i s t := by
  obtain ⟨u, hu, hnext⟩ := thenRun_next h
  exact ran_answerCode (hr u hu) hnext

theorem ran_emit {o : Output} (h : Host.Outcome.next (φ := Fault) (ρ := Refusal) (s.emit o) = .next t) : Ran i s t := by
  cases h
  exact .rule (.output o)

/-- A command that answers `ERR_STATE` where `c` holds, and goes on elsewhere. -/
theorem ran_guard {c : Prop} [Decidable c] {r : ResultCode} {f : Res}
    (h : (if c then answerCode s r else f) = .next t) (hf : ¬c → f = .next t → Ran i s t) : Ran i s t := by
  split at h
  · exact ran_answerCode .refl h
  · next hc => exact hf hc h

theorem ran_onEndpoint {e : Nat} {f : EpNum → Res} (h : onEndpoint e s f = .next t)
    (hf : ∀ e, f e = .next t → Ran i s t) : Ran i s t := by
  unfold onEndpoint at h
  split at h
  · exact hf _ h
  · exact ran_answerCode .refl h

theorem ran_accept {cb : Option Nat} (h : execAccept cb s = .next t) : Ran i s t :=
  ran_guard h fun hs h => ran_answerCode (.rule (.accept cb (not_not.1 hs))) h

theorem ran_reject (h : execReject s = .next t) : Ran i s t :=
  ran_guard h fun hs h => ran_answerCode (.rule (.reject (not_not.1 hs))) h

theorem ran_startControlReturn {p a r : Nat} (h : execStartControlReturn p a r s = .next t) : Ran i s t := by
  refine ran_guard h fun hs h => ran_guard h fun hr h => ?_
  split at h
  · exact ran_answerCode (.rule (.accept none (not_not.1 hs))) h
  · next h0 =>
    exact ran_answerOk (fun u hu => .rule (.controlReturn p a r (not_not.1 hs) (by omega) hu)) h

theorem ran_startReceive {b x k : Nat} (h : execStartReceive b x k s = .next t) : Ran i s t := by
  refine ran_guard h fun hs h => ran_guard h fun hr h => ?_
  exact ran_answerCode (.rule (.receive b x k (not_not.1 hs) (by omega))) h

theorem ran_dispose {x : Disposition} (h : dispose x s = .next t) : Ran i s t := by
  cases x with
  | controlReturn p a r => exact ran_startControlReturn h
  | receive b x k => exact ran_startReceive h
  | accept cb => exact ran_accept h
  | reject => exact ran_reject h

theorem ran_onRequest {f : Res} (h : onRequest s f = .next t) (hf : f = .next t → Ran i s t) : Ran i s t :=
  ran_guard h fun _ h => hf h

/-- A request's command, and the disposition after it. -/
theorem ran_acceptIfOk {r : ResultCode} {done : Res} (h : acceptIfOk r done s = .next t)
    (hd : r = .ok → ∀ u, done = .next u → Ran i s u) : Ran i s t := by
  unfold acceptIfOk at h
  split at h
  · next hr =>
    obtain ⟨u, hu, hnext⟩ := thenRun_next h
    exact (hd hr u hu).trans (ran_accept hnext)
  · exact ran_reject h

theorem ran_arm {e : EpNum} {d : Dir} {a n : Nat} (h : execArm e d a n s = .next t) : Ran i s t := by
  unfold execArm at h
  split at h
  · cases h
  · next he => exact ran_answerCode (.rule (.arm e d a n (Nat.not_le.1 he))) h

theorem ran_setHalt {e : Nat} {d : Dir} (h : execSetHalt e d s = .next t) : Ran i s t :=
  ran_onEndpoint h fun e h => ran_answerCode (.rule (.setHalt e d)) h

theorem ran_clearHalt {e : Nat} {d : Dir} (h : execClearHalt e d s = .next t) : Ran i s t := by
  refine ran_onEndpoint h fun e h => ?_
  split at h
  · next he => exact ran_answerOk (fun u hu => .rule (.clearHalt e d he hu)) h
  · exact ran_answerCode .refl h

theorem ran_queryLen {e : Nat} {d : Dir} (h : execQueryLen e d s = .next t) : Ran i s t := by
  refine ran_onEndpoint h fun e h => ran_guard h fun _ h => ran_guard h fun _ h => ran_guard h fun _ h => ?_
  cases h
  exact .rule (.answer _)

theorem ran_runCdb {cmd : ScsiCmd} (h : runCdb cmd s = .next t) : Ran i s t := by
  refine ran_guard h fun hc h => ran_guard h fun hs h => ?_
  cases h
  exact (Ran.rule (.command cmd (by simpa using hc) (not_not.1 hs))).tail (.answer _)

theorem ran_query {o : Output} {l : Lun} {x : DrvAnswers}
    (h : Host.Outcome.next (φ := Fault) (ρ := Refusal) ((s.emit o).setDrv l x) = .next t)
    (hx : x.capacity = (s.drvOf l).capacity ∨ ∃ a n ok b k, i = .drvStartWrite l a n ok b x.capacity k) :
    Ran i s t := by
  cases h
  exact (Ran.rule (.output o)).tail (.driverAnswer l x hx)

/-! ## The channel and the consumption of a completion -/

theorem ran_notTaken (e : EpNum) (d : Dir) (h : Handshake) : Ran i s (notTaken s e d h) := by
  cases h with
  | ack => exact .refl
  | nak => exact .rule (.handshake _)
  | stall => exact .rule (.handshake _)
  | none => exact .rule (.handshake _)

theorem ran_hwOut {e : EpNum} {toggle : Bool} {b : List Byte} (h : execHwOut e toggle b s = .next t) : Ran i s t := by
  unfold execHwOut at h
  dsimp only at h
  split at h
  · next hh => exact .rule (.takeOut e toggle b hh h)
  · cases h; exact ran_notTaken ..

theorem ran_hwIn {e : EpNum} (h : execHwIn e s = .next t) : Ran i s t := by
  unfold execHwIn at h
  dsimp only at h
  split at h
  · next hh =>
    obtain ⟨-, hnext⟩ := readMem_next h
    cases hnext
    exact .rule (.sendIn e _ hh)
  · cases h; exact ran_notTaken ..

theorem ran_hwSetup {b : List Byte} (h : execHwSetup b s = .next t) : Ran i s t := by
  unfold execHwSetup at h
  dsimp only at h
  split at h
  · next hh => exact .rule (.takeSetup b hh h)
  · cases h; exact ran_notTaken ..

theorem ran_consumeTc {x : Tc} (h : consumeTc x s = .next t) (hi : Consumes s.cfg i x) : Ran i s t := by
  unfold consumeTc at h
  split at h
  · cases h; exact .refl
  · split at h
    · cases h; exact .refl
    · next y rest hq =>
      split at h
      · next hx => exact .rule (.takeHead x rest (by rw [hq, hx]) hi h)
      · cases h

/-- What a transaction leaves queued when nothing waited: its own record. -/
theorem ran_consumeIfNext {q : List Tc} {x : Tc} (hu : Ran i s u) (hq : q = [] → u.tcq = [x])
    (hi : Consumes u.cfg i x) (h : consumeIfNext q u = .next t) : Ran i s t := by
  unfold consumeIfNext at h
  split at h
  · next hc => exact hu.tail (.takeHead x [] (hq hc.2) hi h)
  · cases h; exact hu

theorem returnDesc_tcq (s : State) (e : EpNum) (p : Pid) (m : Nat) :
    (returnDesc s e p m).tcq = s.tcq ++ [⟨e, p⟩] := rfl

theorem takeOut_next {e : EpNum} {b : List Byte} (h : takeOut s e b = .next t) :
    t = (returnDesc (s.setMem (Memory.writeBytes s.mem ((s.epDir e .out).bd (s.hw e .out)).addr b)) e .out
      b.length).show (.ack e .out) := by
  obtain ⟨u, hu, hnext⟩ := thenRun_next h
  obtain ⟨-, rfl⟩ := writeMem_next hu
  cases hnext
  rfl

/-- Endpoint 0 when a SETUP arrives: its halts ended, what was armed on IN withdrawn, and the endpoint held. -/
def setupTaken (s : State) : State := (cancel (endEp0Halt (endEp0Halt s .out) .inp) 0 .inp).setHold true

theorem setupTaken_frame (s : State) :
    setupTaken s = { s with eps := (setupTaken s).eps, ep0Hold := true } := by
  unfold setupTaken
  rw [cancel_frame, endEp0Halt_frame, endEp0Halt_frame]
  rfl

theorem takeSetup_next {b : List Byte} (h : takeSetup s b = .next t) :
    t = (returnDesc ((setupTaken s).setMem (Memory.writeBytes s.mem
      (((setupTaken s).epDir 0 .out).bd ((setupTaken s).hw 0 .out)).addr b)) 0 .setup b.length).show
        (.ack 0 .setup) := by
  obtain ⟨u, hu, hnext⟩ := thenRun_next h
  obtain ⟨-, rfl⟩ := writeMem_next hu
  cases hnext
  have hmem : (setupTaken s).mem = s.mem := by rw [setupTaken_frame]
  rw [← hmem]
  rfl

theorem ran_setupOnWire {p : SetupPacket} (h : setupOnWire p s = .next t) : Ran (.setup .wire p) s t := by
  unfold setupOnWire at h
  dsimp only at h
  split at h
  · next hh =>
    obtain ⟨u, hu, hnext⟩ := thenRun_next h
    refine ran_consumeIfNext (x := ⟨0, .setup⟩) (.rule (.takeSetup p.bytes hh hu)) (fun hq => ?_) ?_ hnext
    · rw [takeSetup_next hu, State.show_tcq, returnDesc_tcq, State.setMem_tcq, setupTaken_frame]
      simp [hq]
    · simp [Consumes]
  · cases h; exact ran_notTaken ..

theorem ran_cbw {b : List Byte} (h : execCbw b s = .next t) : Ran (.cbw b) s t := by
  unfold execCbw at h
  dsimp only at h
  split at h
  · next hh =>
    obtain ⟨u, hu, hnext⟩ := thenRun_next h
    have hcfg : u.cfg = s.cfg := by rw [takeOut_next hu]; rfl
    refine ran_consumeIfNext (x := ⟨s.cfg.mscOut, .out⟩) (.rule (.takeOut _ _ b hh hu)) (fun hq => ?_) ?_ hnext
    · rw [takeOut_next hu, State.show_tcq, returnDesc_tcq, State.setMem_tcq, hq]
      rfl
    · simp [Consumes, hcfg]
  · cases h; exact ran_notTaken ..

end

/-! ## Every instruction -/

/-- An instruction that answers a next state has run rules of its own to it. -/
theorem exec_ran {i : Instr} {s t : State} (h : exec i s = .next t) : Ran i s t := by
  cases i with
  | evTc x => exact ran_consumeTc h (.inl rfl)
  | cteSetup => exact ran_consumeTc h (by simp [Consumes])
  | cteOut => exact ran_consumeTc h (by simp [Consumes])
  | cteIn => exact ran_consumeTc h (by simp [Consumes])
  | mscOut => exact ran_consumeTc h (by simp [Consumes])
  | mscIn => exact ran_consumeTc h (by simp [Consumes])
  | extTc e d =>
    cases d with
    | out => exact ran_consumeTc h (by simp [Consumes])
    | inp => exact ran_consumeTc h (by simp [Consumes])
  | busReset =>
    have hx : execBusReset s = .next t := h
    unfold execBusReset at hx
    split at hx <;> cases hx
    · exact (Ran.rule (.resetSignal false rfl)).tail (.busReset rfl)
    · exact .rule (.resetSignal true rfl)
  | arm e d a n => exact ran_arm h
  | queryLen e d => exact ran_queryLen h
  | setHalt e d => exact ran_setHalt h
  | clearHalt e d => exact ran_clearHalt h
  | epInit => exact ran_answerCode (.rule (.epInit rfl)) h
  | critEnter => exact ran_answerCode (.rule (.mask false (.inl rfl))) h
  | critExit => exact ran_answerCode (.rule (.mask true (.inr rfl))) h
  | startControlReturn p a r => exact ran_startControlReturn h
  | startReceive b x k => exact ran_startReceive h
  | accept cb => exact ran_accept h
  | reject => exact ran_reject h
  | devSetAddress a => exact ran_answerCode (.rule (.holdAddress a)) h
  | devSetConfig v => exact ran_answerCode (.rule (.setConfig v (.inl ⟨v, rfl⟩))) h
  | stackInit => cases h; exact .rule (.stackInit rfl)
  | evBlockReady p l => exact .rule (.blockReady p l h)
  | evReadComplete ok => exact .rule (.readComplete ok h)
  | evWriteDataHandled => exact .rule (.writeDataHandled h)
  | evWriteComplete ok => exact .rule (.writeComplete ok h)
  | mscReset =>
    refine ran_guard h fun hc h => ran_answerCode (.rule (.mscReset (by simpa using hc) (.inl rfl))) h
  | mscHaltCleared d =>
    refine ran_guard h fun hc h => ran_guard h fun hs h => ran_answerOk (fun u hu => ?_) h
    obtain ⟨hd, hn⟩ := not_or.1 hs
    exact .rule (.haltCleared d (by simpa using hc) hd hn hu)
  | setupRequest p => exact ran_emit h
  | completion k ok => exact ran_emit h
  | setDeviceAddress a => exact ran_emit h
  | drvBlockSent ok => exact ran_emit h
  | drvWriteBuffer k ok n => exact ran_emit h
  | drvGetInfo l bs n wp => exact ran_query h (.inl rfl)
  | drvUnitReady l r => exact ran_query h (.inl rfl)
  | drvStartStop l st ej ok => exact ran_query h (.inl rfl)
  | drvStartRead l a n ok => exact ran_query h (.inl rfl)
  | drvStartWrite l a n ok b c k => exact ran_query h (.inr ⟨a, n, ok, b, k, rfl⟩)
  | hwOut e toggle b => exact ran_hwOut h
  | hwIn e => exact ran_hwIn h
  | hwSetup b => exact ran_hwSetup h
  | setup port p =>
    cases port with
    | wire => exact ran_setupOnWire h
    | request => exact ran_dispose h
  | getDescriptor ty ix lang len =>
    have hx : execGetDescriptor ty ix lang len s = .next t := h
    unfold execGetDescriptor at hx
    split at hx
    · exact ran_startControlReturn hx
    · exact ran_reject hx
  | setAddress v x =>
    refine ran_onRequest h fun h => ran_acceptIfOk h fun _ u hu => ?_
    cases hu
    exact .rule (.holdAddress _)
  | setConfiguration v x =>
    refine ran_onRequest h fun h => ran_acceptIfOk h fun _ u hu => ?_
    cases hu
    exact .rule (.setConfig _ (.inr ⟨v, x, rfl⟩))
  | clearFeatureEndpointHalt x =>
    exact ran_onRequest h fun h => ran_acceptIfOk h fun hr u hu => .rule (.clearHalt _ _ hr hu)
  | setFeatureEndpointHalt x =>
    refine ran_onRequest h fun h => ran_acceptIfOk h fun _ u hu => ?_
    cases hu
    exact .rule (.setHalt _ _)
  | bulkOnlyMassStorageReset =>
    refine ran_onRequest h fun h => ran_acceptIfOk h fun hr u hu => ?_
    cases hu
    have hc : s.configured = true := by
      by_contra hc
      rw [if_neg hc] at hr
      cases hr
    exact .rule (.mscReset hc (.inr rfl))
  | getMaxLun v => exact ran_dispose h
  | cbw b => exact ran_cbw h
  | csw tag r st =>
    refine ran_guard h fun hc h => ran_guard h fun hs h => ran_guard h fun _ h => ran_answerOk (fun u hu => ?_) h
    exact .rule (.sendCsw (by simpa using hc) (not_not.1 hs) hu)
  | testUnitReady => exact ran_runCdb h
  | requestSense => exact ran_runCdb h
  | inquiry => exact ran_runCdb h
  | modeSense6 => exact ran_runCdb h
  | startStopUnit st ej => exact ran_runCdb h
  | readCapacity10 => exact ran_runCdb h
  | read10 a n => exact ran_runCdb h
  | write10 a n => exact ran_runCdb h
  | scsiUnknown op => exact ran_runCdb h
  | bdArmed e d k tog n =>
    have hx : execBdArmed e d k tog n s = .next t := h
    unfold execBdArmed at hx
    split at hx
    · exact ran_arm hx
    · exact ran_answerCode .refl hx
  | bdStalled e d k n =>
    have hx : execBdStalled e d k n s = .next t := h
    unfold execBdStalled at hx
    split at hx
    · exact ran_setHalt hx
    · exact ran_answerCode .refl hx
  | bdReturned e d k tog n =>
    have hx : execBdReturned e d k tog n s = .next t := h
    unfold execBdReturned at hx
    split at hx
    · cases d with
      | out => exact ran_hwOut hx
      | inp => exact ran_hwIn hx
    · cases hx; exact .refl

/-! ## Every step -/

/-- What every instruction of a step has: a write buffer the driver offers fits `msc.wbuf_cap` (`WellFormed`). -/
def OffersFit (i : Instr) : Prop := ∀ l a n ok b cap k, i = .drvStartWrite l a n ok b cap k → cap < 2 ^ 32

theorem offersFit_of_wellFormed {c : Config} {i : Instr} (h : WellFormed c i = true) : OffersFit i := by
  rintro l a n ok b cap k rfl
  simp only [WellFormed, Bool.and_eq_true] at h
  exact of_decide_eq_true h.1.2

theorem unlessReset_cases {s t : State} {r : Res} (h : unlessReset s r = .next t) :
    s.cfg.wf = true ∧ (Ran .busReset s t ∨ r = .next t) := by
  unfold unlessReset at h
  split at h
  · cases h
  · next hwf =>
    refine ⟨by simpa using hwf, ?_⟩
    split at h
    · exact .inl (exec_ran (i := .busReset) h)
    · exact .inr h

/-- A step takes the next input off the list, or none; then it does nothing, is a run of rules of one instruction, or
stores what the environment writes. The configuration is a good one. -/
theorem step_cases {s t : State} (h : step s = .next t) : s.cfg.wf = true ∧
    ∃ u, (u = s ∨ ∃ rest, u = s.setInputs rest) ∧
      (t = u ∨ (∃ i, OffersFit i ∧ Ran i u t) ∨ ∃ a bs, t = u.setMem (Memory.writeBytes u.mem a bs)) := by
  have hreset : OffersFit .busReset := by rintro l a n ok b cap k ⟨⟩
  unfold step at h
  split at h
  · obtain ⟨hwf, hran | hnext⟩ := unlessReset_cases h
    · exact ⟨hwf, s, .inl rfl, .inr (.inl ⟨_, hreset, hran⟩)⟩
    · refine ⟨hwf, s, .inl rfl, ?_⟩
      unfold idleStep at hnext
      split at hnext
      · unfold takeHead at hnext
        split at hnext
        · cases hnext; exact .inl rfl
        · next x rest hq =>
          refine .inr (.inl ⟨.evTc x, by rintro l a n ok b cap k ⟨⟩, .rule (.takeHead x rest hq (.inl rfl) ?_)⟩)
          simpa only [takeHead, hq] using hnext
      · cases hnext; exact .inl rfl
  · next x rest hx =>
    obtain ⟨hwf, hran | hnext⟩ := unlessReset_cases h
    · exact ⟨hwf, s, .inl rfl, .inr (.inl ⟨_, hreset, hran⟩)⟩
    · refine ⟨hwf, s.setInputs rest, .inr ⟨rest, rfl⟩, ?_⟩
      cases x with
      | record r =>
        simp only [runInput, runRecord] at hnext
        split at hnext
        · next i hi => exact .inr (.inl ⟨i, offersFit_of_wellFormed (decode_eq_some.1 hi).2, exec_ran hnext⟩)
        · cases hnext
      | memWrite a bs =>
        simp only [runInput, envWrite] at hnext
        split at hnext
        · exact .inr (.inr ⟨a, bs, (writeMem_next hnext).2⟩)
        · cases hnext

/-- What every rule keeps under a good configuration, every step keeps: `I` may look at no input, and at memory in
no way that a write of the environment can change. -/
theorem step_keeps {I : State → Prop} (hin : ∀ s x, I s → I (s.setInputs x)) (hmem : ∀ s m, I s → I (s.setMem m))
    (hrule : ∀ i s t, OffersFit i → s.cfg.wf = true → Rule i s t → I s → t.cfg = s.cfg ∧ I t)
    {s t : State} (h : step s = .next t) (hs : I s) : I t := by
  obtain ⟨hwf, u, hu, ht⟩ := step_cases h
  have hIu : u.cfg.wf = true ∧ I u := by
    obtain rfl | ⟨rest, rfl⟩ := hu
    · exact ⟨hwf, hs⟩
    · exact ⟨hwf, hin s rest hs⟩
  obtain rfl | ⟨i, hfit, hran⟩ | ⟨a, bs, rfl⟩ := ht
  · exact hIu.2
  · refine (hran.keeps (I := fun v => v.cfg.wf = true ∧ I v) (fun v w hr hv => ?_) hIu).2
    obtain ⟨hc, hI⟩ := hrule i v w hfit hv.1 hr hv.2
    exact ⟨hc ▸ hv.1, hI⟩
  · exact hmem u _ hIu.2

end Sys2Proof.Machine
end

section
/-! # The operations of the transport and of the engine

A rule of 43_msc_bot.md is a run of `BulkOp`s, one of 41_control_engine.md a run of `EngineOp`s. What such a run leaves
alone follows from what one operation leaves alone. -/

namespace Sys2Proof.Machine

/-! ## `SET_HALT`, whoever gives it -/

/-- `SET_HALT` writes the endpoint table, the queue, and `msc.csw_armed` (43_msc_bot.md R193). -/
theorem setHaltIn_frame (s : State) (b : Caller) (e : EpNum) (d : Dir) : setHaltIn s b e d =
    { s with eps := (setHaltIn s b e d).eps, tcq := (setHaltIn s b e d).tcq
             msc := { s.msc with cswArmed := (setHaltIn s b e d).msc.cswArmed } } := by
  unfold setHaltIn
  split
  · rw [setHaltStore_eq]
    split
    · rfl
    · split
      · unfold hostHalt
        split <;> rfl
      · rfl
  · rfl

/-- `SET_HALT` in another rule does nothing, or what `halted` says. -/
theorem setHaltIn_msc_cases (s : State) (e : EpNum) (d : Dir) :
    setHaltIn s .msc e d = s ∨ setHaltResult s .msc e d = .ok ∧ (s.epDir e d).halted = false ∧
      setHaltIn s .msc e d = halted s e d := by
  by_cases hr : setHaltResult s .msc e d = .ok
  · cases hh : (s.epDir e d).halted with
    | true => exact .inl (by simp [setHaltIn, hr, setHaltStore_eq, hh])
    | false => exact .inr ⟨hr, rfl, by simp [setHaltIn, hr, setHaltStore_eq, hh]⟩
  · exact .inl (if_neg hr)

@[simp] theorem setHaltIn_msc_msc (s : State) (e : EpNum) (d : Dir) : (setHaltIn s .msc e d).msc = s.msc := by
  obtain h | ⟨-, -, h⟩ := setHaltIn_msc_cases s e d <;> rw [h]
  rfl

/-! ## Operations -/

/-- What the rules of 43_msc_bot.md are made of. -/
inductive BulkOp (s : State) : State → Prop
  | arm (e : EpNum) (d : Dir) (a n : Nat) (hm : s.isMsc e d = true) : BulkOp s (armIn s e d a n)
  | halt (e : EpNum) (d : Dir) (hm : s.isMsc e d = true) : BulkOp s (setHaltIn s .msc e d)
  | flush (e : EpNum) (d : Dir) (hm : s.isMsc e d = true) : BulkOp s (flush s e d)
  | release (e : EpNum) (d : Dir) (hh : (s.epDir e d).halted = true) : BulkOp s (clearHaltStore s e d)
  | transport (m : Msc) : BulkOp s (s.setMsc m)
  | sense (x : Sense) : BulkOp s (s.setSense x)
  | output (o : Output) : BulkOp s (s.emit o)
  | lend (x : Nat × Nat) : BulkOp s (s.lendBlock x)
  | store (a : Nat) (bs : List Byte) : BulkOp s (s.setMem (Memory.writeBytes s.mem a bs))

/-- What the rules of 41_control_engine.md are made of. -/
inductive EngineOp (s : State) : State → Prop
  | arm (d : Dir) (a n : Nat) : EngineOp s (armIn s 0 d a n)
  | halt (d : Dir) : EngineOp s (setHaltIn s .cte 0 d)
  | withdraw : EngineOp s (cancel s 0 .inp)
  | toggle (d : Dir) : EngineOp s (s.onDir 0 d fun x => { x with nextToggle := true })
  | session (x : Session) : EngineOp s (s.setCs x)
  | stage (x : CteState) : EngineOp s (s.setCte x)
  | hold (b : Bool) : EngineOp s (s.setHold b)
  | latch (p : SetupPacket) : EngineOp s (s.setSetup p)
  | device (x : Device) (hx : x.configurationValue = s.dev.configurationValue) : EngineOp s (s.setDev x)
  | output (o : Output) : EngineOp s (s.emit o)
  | lend (x : Nat × Nat) : EngineOp s (s.lendSession x)
  | store (a : Nat) (bs : List Byte) : EngineOp s (s.setMem (Memory.writeBytes s.mem a bs))

/-- A run of operations of the transport. -/
abbrev BulkRun : State → State → Prop := Relation.ReflTransGen BulkOp

/-- A run of operations of the engine. -/
abbrev EngineRun : State → State → Prop := Relation.ReflTransGen EngineOp

/-! ## What a run leaves alone -/

/-- The transport's rules write the endpoint table, the queue, memory, the transport's registers, the sense, the trace,
and the block on loan. -/
def BulkFrame (s t : State) : Prop :=
  t = { s with eps := t.eps, tcq := t.tcq, mem := t.mem, msc := t.msc, sense := t.sense, outputs := t.outputs
               lentBlock := t.lentBlock }

/-- The engine's rules write none of the transport's registers but `msc.csw_armed` (43_msc_bot.md R193), and select no
configuration. -/
def EngineFrame (s t : State) : Prop :=
  t.dev.configurationValue = s.dev.configurationValue ∧
  t = { s with eps := t.eps, ep0Hold := t.ep0Hold, tcq := t.tcq, cteState := t.cteState, setup := t.setup, cs := t.cs
               dev := t.dev, msc := { s.msc with cswArmed := t.msc.cswArmed }, mem := t.mem, outputs := t.outputs
               lentSession := t.lentSession }

theorem BulkOp.frame {s t : State} (h : BulkOp s t) : BulkFrame s t := by
  unfold BulkFrame
  cases h with
  | arm e d a n => rw [armIn_frame]
  | halt e d => rw [setHaltIn_frame, setHaltIn_msc_msc]
  | flush e d => rw [flush_frame]
  | release e d => rfl
  | transport m => rfl
  | sense x => rfl
  | output o => rfl
  | lend x => rfl
  | store a bs => rfl

theorem EngineOp.frame {s t : State} (h : EngineOp s t) : EngineFrame s t := by
  cases h with
  | arm d a n => rw [armIn_frame]; exact ⟨rfl, rfl⟩
  | halt d => rw [setHaltIn_frame]; exact ⟨rfl, rfl⟩
  | withdraw => exact ⟨rfl, rfl⟩
  | toggle d => exact ⟨rfl, rfl⟩
  | session x => exact ⟨rfl, rfl⟩
  | stage x => exact ⟨rfl, rfl⟩
  | hold b => exact ⟨rfl, rfl⟩
  | latch p => exact ⟨rfl, rfl⟩
  | device x hx => exact ⟨hx, rfl⟩
  | output o => exact ⟨rfl, rfl⟩
  | lend x => exact ⟨rfl, rfl⟩
  | store a bs => exact ⟨rfl, rfl⟩

theorem BulkRun.frame {s t : State} (h : BulkRun s t) : BulkFrame s t := by
  induction h with
  | refl => rfl
  | tail _ hop ih =>
    have := hop.frame
    unfold BulkFrame at *
    rw [this, ih]

theorem EngineRun.frame {s t : State} (h : EngineRun s t) : EngineFrame s t := by
  induction h with
  | refl => exact ⟨rfl, rfl⟩
  | tail _ hop ih =>
    obtain ⟨hc, hf⟩ := hop.frame
    obtain ⟨hc', hf'⟩ := ih
    refine ⟨hc.trans hc', ?_⟩
    rw [hf, hf']

theorem BulkOp.memoryOk {s t : State} (h : BulkOp s t) (hs : s.memoryOk) : t.memoryOk := by
  unfold State.memoryOk at *
  cases h with
  | arm e d a n => rw [armIn_frame]; exact hs
  | halt e d => rw [setHaltIn_frame]; exact hs
  | flush e d => rw [flush_frame]; exact hs
  | release e d => exact hs
  | transport m => exact hs
  | sense x => exact hs
  | output o => exact hs
  | lend x => exact hs
  | store a bs => exact Memory.wf_writeBytes hs a bs

theorem EngineOp.memoryOk {s t : State} (h : EngineOp s t) (hs : s.memoryOk) : t.memoryOk := by
  unfold State.memoryOk at *
  cases h with
  | arm d a n => rw [armIn_frame]; exact hs
  | halt d => rw [setHaltIn_frame]; exact hs
  | withdraw => exact hs
  | toggle d => exact hs
  | session x => exact hs
  | stage x => exact hs
  | hold b => exact hs
  | latch p => exact hs
  | device x hx => exact hs
  | output o => exact hs
  | lend x => exact hs
  | store a bs => exact Memory.wf_writeBytes hs a bs

theorem BulkRun.memoryOk {s t : State} (h : BulkRun s t) (hs : s.memoryOk) : t.memoryOk := by
  induction h with
  | refl => exact hs
  | tail _ hop ih => exact hop.memoryOk ih

theorem EngineRun.memoryOk {s t : State} (h : EngineRun s t) (hs : s.memoryOk) : t.memoryOk := by
  induction h with
  | refl => exact hs
  | tail _ hop ih => exact hop.memoryOk ih

theorem BulkRun.op {s t : State} (h : BulkOp s t) : BulkRun s t := .single h
theorem EngineRun.op {s t : State} (h : EngineOp s t) : EngineRun s t := .single h

/-! ## The rules of the engine are runs -/

section
variable {s t : State}

theorem engineRun_copyMem {dst src n : Nat} (h : copyMem s dst src n = .next t) : EngineRun s t := by
  rw [copyMem_next h]
  exact .op (.store _ _)

theorem engineRun_armEp0Out (s : State) : EngineRun s (armEp0Out s) := .op (.arm ..)

theorem engineRun_armEp0Zlp (s : State) : EngineRun s (armEp0Zlp s) := .op (.arm ..)

theorem engineRun_destroySession (s : State) : EngineRun s (destroySession s) := .op (.session _)

/-- A session's callback is told, if it has one. -/
theorem engineRun_report (s : State) (c : Session) (o : Output) :
    EngineRun s (if c.cbValid then s.emit o else s) := by
  split
  · exact .op (.output o)
  · exact .refl

theorem engineRun_abortSession (s : State) : EngineRun s (abortSession s) :=
  ((engineRun_report s s.cs _).tail (.device _ (by rfl))).tail (.session _) |>.tail (.stage _)

theorem engineRun_completeSession (s : State) : EngineRun s (completeSession s) := by
  have haddress (u : State) : EngineRun u (if u.dev.pendingValid then
      (u.setDev { u.dev with address := u.dev.pendingAddress, pendingValid := false }).emit
        (.setDeviceAddress u.dev.pendingAddress) else u) := by
    split
    · exact .tail (.tail .refl (.device _ (by rfl))) (.output _)
    · exact .refl
  exact .tail (.tail ((engineRun_report s s.cs _).trans (haddress _)) (.session _)) (.stage _)

theorem engineRun_haltEp0 (s : State) : EngineRun s (haltEp0 s) := (EngineRun.op (.halt .inp)).tail (.halt .out)

theorem engineRun_rejectBody (s : State) (n : Nat) : EngineRun s (rejectBody s n) := by
  unfold rejectBody
  dsimp only
  refine .tail (.tail ((EngineRun.op (.hold false)).trans ?_) (.session _)) (.stage _)
  split
  · exact (EngineRun.op (.halt .inp)).trans (engineRun_armEp0Out _)
  · exact engineRun_haltEp0 _

theorem engineRun_localProtocol (s : State) : EngineRun s (raise s .localProtocolEp0) :=
  (engineRun_haltEp0 s).trans (engineRun_abortSession _)

theorem engineRun_sendChunk (h : sendChunk s = .next t) : EngineRun s t := by
  obtain ⟨u, hu, hnext⟩ := thenRun_next h
  cases hnext
  exact ((engineRun_copyMem hu).tail (.arm ..)).tail (.session _)

theorem engineRun_acceptBody (s : State) (cb : Option Nat) : EngineRun s (acceptBody s cb) :=
  ((((EngineRun.op (.session _)).tail (.stage _)).tail (.hold _)).tail (.lend _)).tail (.arm ..) |>.tail (.arm ..)

theorem engineRun_controlReturnBody {p a r : Nat} (h : controlReturnBody s p a r = .next t) : EngineRun s t := by
  obtain ⟨u, hu, hnext⟩ := thenRun_next h
  cases hnext
  exact (((((EngineRun.op (.session _)).tail (.stage _)).tail (.lend _)).trans (engineRun_sendChunk hu)).trans
    (engineRun_armEp0Out u)).tail (.hold _)

theorem engineRun_receiveBody (s : State) (b x k : Nat) : EngineRun s (receiveBody s b x k) := by
  unfold receiveBody
  dsimp only
  split
  · exact .tail (.tail (.tail (.tail (.tail (.tail .refl (.session _)) (.hold _)) (.lend _)) (.stage _)) (.arm ..)) (.arm ..)
  · exact .tail (.tail (.tail (.tail (.tail .refl (.session _)) (.hold _)) (.lend _)) (.stage _)) (.arm ..)

theorem engineRun_setupArrived (s : State) : EngineRun s (setupArrived s) := by
  unfold setupArrived
  dsimp only
  refine .tail (.tail (.tail (.tail (.tail ?_ .withdraw) (.toggle .inp)) (.toggle .out)) (.session _)) (.stage _)
  split
  · exact engineRun_abortSession s
  · exact .refl

theorem engineRun_onCteSetup {n buf : Nat} (h : onCteSetup s n buf = .next t) : EngineRun s t := by
  unfold onCteSetup at h
  dsimp only at h
  split at h
  · cases h
    exact (engineRun_setupArrived s).trans (engineRun_rejectBody _ n)
  · obtain ⟨-, hnext⟩ := readMem_next h
    cases hnext
    exact (((engineRun_setupArrived s).tail (.latch _)).tail (.session _)).tail (.output _)

theorem engineRun_onCteIn (h : onCteIn s = .next t) : EngineRun s t := by
  unfold onCteIn at h
  split at h
  · split at h
    · exact engineRun_sendChunk h
    · split at h
      · cases h; exact (engineRun_armEp0Zlp s).tail (.session _)
      · cases h; exact .op (.stage _)
  · split at h
    · cases h; exact engineRun_completeSession s
    · cases h; exact .refl
  all_goals cases h; exact .refl

theorem engineRun_onDataOut {n buf : Nat} (h : onDataOut s n buf = .next t) : EngineRun s t := by
  unfold onDataOut at h
  split at h
  · cases h; exact engineRun_localProtocol s
  · obtain ⟨u, hu, hnext⟩ := thenRun_next h
    dsimp only at hnext
    have hrun : EngineRun s (armEp0Out (u.setCs { u.cs with
        cursor := u.cs.cursor + n, remaining := u.cs.remaining - n })) :=
      ((engineRun_copyMem hu).tail (.session _)).trans (engineRun_armEp0Out _)
    split at hnext <;> cases hnext
    · exact (hrun.tail (.stage _)).trans (engineRun_armEp0Zlp _)
    · exact hrun

theorem engineRun_onCteOut {n buf : Nat} (h : onCteOut s n buf = .next t) : EngineRun s t := by
  unfold onCteOut at h
  split at h
  · exact engineRun_onDataOut h
  · split at h <;> cases h
    · exact ((EngineRun.op .withdraw).trans (engineRun_abortSession _)).trans (engineRun_armEp0Out _)
    · exact engineRun_localProtocol s
  · split at h
    · split at h <;> cases h
      · exact (engineRun_completeSession s).trans (engineRun_armEp0Out _)
      · exact engineRun_armEp0Out s
    · cases h; exact engineRun_localProtocol s
  · cases h; exact engineRun_armEp0Out s
  · cases h; exact .refl

end

/-! ## The rules of the transport are runs -/

section
variable {s t : State}

theorem isMsc_mscOut (s : State) : s.isMsc s.cfg.mscOut .out = true := by simp
theorem isMsc_mscIn (s : State) : s.isMsc s.cfg.mscIn .inp = true := by simp

theorem bulkRun_writeMem {a : Nat} {bs : List Byte} (h : writeMem s a bs = .next t) : BulkRun s t := by
  rw [(writeMem_next h).2]
  exact .op (.store a bs)

theorem bulkRun_copyMem {dst src n : Nat} (h : copyMem s dst src n = .next t) : BulkRun s t := by
  rw [copyMem_next h]
  exact .op (.store _ _)

theorem bulkRun_armIn_mscIn (s : State) (a n : Nat) : BulkRun s (armIn s s.cfg.mscIn .inp a n) :=
  .op (.arm _ _ a n (isMsc_mscIn s))

theorem bulkRun_armOut (s : State) : BulkRun s (armOut s) := by
  unfold armOut
  dsimp only
  split
  · exact .op (.arm _ _ _ _ (isMsc_mscOut s))
  · exact .refl

theorem bulkRun_unwind (s : State) : BulkRun s (unwind s) := by
  unfold unwind
  dsimp only
  refine .tail ?_ (.transport _)
  split
  · exact BulkRun.op (.output _)
  · exact BulkRun.op (.output _)
  · exact .refl

theorem bulkRun_stallMsc (s : State) (d : Dir) : BulkRun s (stallMsc s d) := by
  unfold stallMsc
  cases d with
  | out => exact (BulkRun.op (.halt _ _ (isMsc_mscOut s))).tail (.transport _)
  | inp => exact (BulkRun.op (.halt _ _ (isMsc_mscIn s))).tail (.transport _)

theorem bulkRun_stallWith (s : State) (st : Byte) (r : Nat) (d : Dir) : BulkRun s (stallWith s st r d) :=
  (BulkRun.op (.transport _)).trans (bulkRun_stallMsc _ d)

theorem bulkRun_haltBoth (s : State) : BulkRun s (haltBoth s) :=
  (BulkRun.op (.halt _ _ (isMsc_mscIn s))).tail (.halt _ _ (isMsc_mscOut _))

theorem bulkRun_badCbw (s : State) : BulkRun s (raise s .badCbw) :=
  ((bulkRun_unwind s).trans (bulkRun_haltBoth _)).tail (.transport _)

theorem bulkRun_mediumError (s : State) (r : SenseReason) : BulkRun s (raise s (.mediumError r)) :=
  (BulkRun.op (.sense _)).tail (.transport _)

theorem bulkRun_localProtocol (s : State) : BulkRun s (raise s .localProtocolMsc) :=
  (bulkRun_unwind s).trans (bulkRun_stallWith _ _ _ _)

theorem bulkRun_mscResetBody (s : State) : BulkRun s (mscResetBody s) := by
  unfold mscResetBody
  dsimp only
  have hcfg : (flush (unwind s) s.cfg.mscIn .inp).cfg = s.cfg := by
    rw [flush_cfg, (bulkRun_unwind s).frame]
  have hin : (unwind s).isMsc s.cfg.mscIn .inp = true := by rw [(bulkRun_unwind s).frame]; simp
  have hout : (flush (unwind s) s.cfg.mscIn .inp).isMsc s.cfg.mscOut .out = true := by
    rw [State.isMsc_out, hcfg, beq_self_eq_true]
  have hrun : BulkRun s (toMscState (flush (flush (unwind s) s.cfg.mscIn .inp) s.cfg.mscOut .out) .idle) :=
    (((bulkRun_unwind s).tail (.flush _ _ hin)).tail (.flush _ _ hout)).tail (.transport _)
  split
  · exact hrun
  · exact hrun.trans (bulkRun_armOut _)

theorem bulkRun_sendCsw (h : sendCsw s = .next t) : BulkRun s t := by
  unfold sendCsw at h
  split at h
  · cases h
  · dsimp only at h
    split at h
    · cases h; exact .op (.transport _)
    · obtain ⟨u, hu, hnext⟩ := thenRun_next h
      cases hnext
      have hmsc : u.cfg.mscIn = s.cfg.mscIn := by rw [(writeMem_next hu).2]; rfl
      refine .tail (.trans ((BulkRun.op (.transport _)).trans (bulkRun_writeMem hu)) ?_) (.transport _)
      exact hmsc ▸ bulkRun_armIn_mscIn u _ _

/-- What a clear-halt does before the CSW that may be due: bulk OUT is offered again (43_msc_bot.md R194). -/
def reoffered (s : State) : Dir → State
  | .out => armOut s
  | .inp => s

theorem haltCleared_eq (s : State) (d : Dir) : haltCleared s d =
    if ((reoffered s d).msc.state = .stall ∨ (reoffered s d).msc.state = .csw) ∧
        ((reoffered s d).epDir (reoffered s d).cfg.mscIn .inp).halted = false ∧ (reoffered s d).msc.cswArmed = false then
      sendCsw (reoffered s d)
    else .next (reoffered s d) := by
  cases d <;> rfl

theorem bulkRun_reoffered (s : State) (d : Dir) : BulkRun s (reoffered s d) := by
  cases d with
  | out => exact bulkRun_armOut s
  | inp => exact .refl

theorem bulkRun_haltCleared {d : Dir} (h : haltCleared s d = .next t) : BulkRun s t := by
  rw [haltCleared_eq] at h
  split at h
  · exact (bulkRun_reoffered s d).trans (bulkRun_sendCsw h)
  · cases h; exact bulkRun_reoffered s d

theorem bulkRun_clearHaltBody {e : EpNum} {d : Dir} (h : clearHaltBody s e d = .next t) : BulkRun s t := by
  unfold clearHaltBody at h
  split at h
  · cases h; exact .refl
  · next hh =>
    split at h
    · cases h; exact .refl
    · have hrel : BulkRun s (clearHaltStore s e d) := .op (.release e d (by simpa using hh))
      dsimp only at h
      split at h
      · exact hrel.trans (bulkRun_haltCleared h)
      · cases h; exact hrel

theorem bulkRun_finishIn (h : finishIn s = .next t) : BulkRun s t := by
  unfold finishIn at h
  dsimp only at h
  split at h
  · cases h; exact (BulkRun.op (.transport _)).trans (bulkRun_stallMsc _ _)
  · exact (BulkRun.op (.transport _)).trans (bulkRun_sendCsw h)

theorem bulkRun_pumpCopy {p n : Nat} (h : pumpCopy s p n = .next t) : BulkRun s t := by
  unfold pumpCopy at h
  split at h
  · exact bulkRun_writeMem h
  · exact bulkRun_copyMem h

theorem bulkRun_pumpIn (h : pumpIn s = .next t) : BulkRun s t := by
  obtain ⟨u, hu, hnext⟩ := thenRun_next h
  cases hnext
  have hcopy := bulkRun_pumpCopy hu
  have hmsc : u.cfg.mscIn = s.cfg.mscIn := by rw [hcopy.frame]
  exact (hcopy.trans (hmsc ▸ bulkRun_armIn_mscIn u _ _)).tail (.transport _)

/-- The packet in flight counted (43_msc_bot.md R197). -/
def packetCounted (s : State) : State :=
  s.setMsc { s.msc with inArmed := false, transferred := s.msc.transferred + s.msc.txLast }

/-- The end of a driver's block reported (43_msc_bot.md R197). -/
def blockReported (s : State) : State :=
  if s.msc.txSrc = .driver ∧ s.msc.op = .read then s.emit (.drvBlockSent true) else s

theorem onDataInSent_eq (s : State) : onDataInSent s =
    if (packetCounted s).msc.txRem > 0 then pumpIn (packetCounted s)
    else if (blockReported (packetCounted s)).msc.txSrc = .internal ∨
        (blockReported (packetCounted s)).msc.op = .none then finishIn (blockReported (packetCounted s))
    else .next (blockReported (packetCounted s)) := rfl

theorem bulkRun_blockReported (s : State) : BulkRun s (blockReported s) := by
  unfold blockReported
  split
  · exact .op (.output _)
  · exact .refl

theorem bulkRun_onDataInSent (h : onDataInSent s = .next t) : BulkRun s t := by
  have hcount : BulkRun s (packetCounted s) := .op (.transport _)
  have hreport := hcount.trans (bulkRun_blockReported (packetCounted s))
  rw [onDataInSent_eq] at h
  split at h
  · exact hcount.trans (bulkRun_pumpIn h)
  · split at h
    · exact hreport.trans (bulkRun_finishIn h)
    · cases h; exact hreport

theorem bulkRun_onMscIn (h : onMscIn s = .next t) : BulkRun s t := by
  unfold onMscIn at h
  split at h
  · split at h <;> cases h
    · exact .op (.transport _)
    · exact .refl
  · split at h
    · exact bulkRun_onDataInSent h
    · cases h; exact .refl
  all_goals cases h; exact .refl

theorem bulkRun_evBlockReady {ptr len : Nat} (h : execEvBlockReady ptr len s = .next t) : BulkRun s t := by
  unfold execEvBlockReady at h
  split at h
  · dsimp only at h
    split at h
    · cases h; exact .refl
    · exact ((BulkRun.op (.transport _)).tail (.lend _)).trans (bulkRun_pumpIn h)
  · cases h

/-- The read operation ended, its failure recorded (43_msc_bot.md R199). -/
def readEnded (s : State) (ok : Bool) : State :=
  if ok = false ∨ s.msc.transferred + s.msc.txRem + s.msc.inFlight < s.msc.intentLen then
    let u := raise (s.setMsc { s.msc with op := .none }) (.mediumError .readError)
    u.setMsc { u.msc with txRem := 0 }
  else s.setMsc { s.msc with op := .none }

theorem execEvReadComplete_eq (s : State) (ok : Bool) : execEvReadComplete ok s =
    if s.msc.state = .dataIn ∧ s.msc.op = .read then
      if (readEnded s ok).msc.inArmed then .next (readEnded s ok) else finishIn (readEnded s ok)
    else .refused .notificationRequire := rfl

theorem bulkRun_readEnded (s : State) (ok : Bool) : BulkRun s (readEnded s ok) := by
  unfold readEnded
  dsimp only
  split
  · exact .tail (.tail (.tail (.tail .refl (.transport _)) (.sense _)) (.transport _)) (.transport _)
  · exact .op (.transport _)

theorem bulkRun_evReadComplete {ok : Bool} (h : execEvReadComplete ok s = .next t) : BulkRun s t := by
  rw [execEvReadComplete_eq] at h
  split at h
  · split at h
    · cases h; exact bulkRun_readEnded s ok
    · exact (bulkRun_readEnded s ok).trans (bulkRun_finishIn h)
  · cases h

/-- The write buffer, which now holds `n` bytes more, handed over if it is full or the data phase is whole
(43_msc_bot.md R202, R203). -/
def packetAdded (s : State) (n : Nat) : State :=
  let u := s.setMsc { s.msc with wbufFill := s.msc.wbufFill + n, transferred := s.msc.transferred + n }
  if u.msc.wbufFill = u.msc.wbufCap ∨ u.msc.transferred = u.msc.intentLen then handOver u else u

theorem acceptPacket_eq (s : State) (buf n : Nat) : acceptPacket s buf n =
    if n > s.msc.intentLen - s.msc.transferred ∨ n > s.msc.wbufCap - s.msc.wbufFill then
      .next (raise s .localProtocolMsc)
    else thenRun (copyMem s (s.msc.wbufPtr + s.msc.wbufFill) buf n) fun u => .next (armOut (packetAdded u n)) := rfl

theorem bulkRun_packetAdded (s : State) (n : Nat) : BulkRun s (packetAdded s n) := by
  unfold packetAdded
  dsimp only
  split
  · exact .tail (.tail (.tail .refl (.transport _)) (.output _)) (.transport _)
  · exact .op (.transport _)

theorem bulkRun_acceptPacket {buf n : Nat} (h : acceptPacket s buf n = .next t) : BulkRun s t := by
  rw [acceptPacket_eq] at h
  split at h
  · cases h; exact bulkRun_localProtocol s
  · obtain ⟨u, hu, hnext⟩ := thenRun_next h
    cases hnext
    exact ((bulkRun_copyMem hu).trans (bulkRun_packetAdded u n)).trans (bulkRun_armOut _)

theorem bulkRun_onDataOutPacket {n buf : Nat} (h : onDataOutPacket s n buf = .next t) : BulkRun s t := by
  unfold onDataOutPacket at h
  split at h
  · split at h <;> cases h
    exact .op (.transport _)
  · exact bulkRun_acceptPacket h

theorem bulkRun_evWriteDataHandled (h : execEvWriteDataHandled s = .next t) : BulkRun s t := by
  unfold execEvWriteDataHandled at h
  split at h
  · dsimp only at h
    split at h
    · exact ((BulkRun.op (.transport _)).tail (.transport _)).trans (bulkRun_acceptPacket h)
    · cases h; exact .op (.transport _)
  · cases h

/-- The write operation ended, its failure recorded (43_msc_bot.md R206). -/
def writeEnded (s : State) (ok : Bool) : State :=
  let u := s.setMsc { s.msc with op := .none, awaitingDrain := false, missed := 0 }
  let v := if ok then u else raise u (.mediumError .writeError)
  v.setMsc { v.msc with residue := residueOf v.msc.requested v.msc.transferred }

theorem execEvWriteComplete_eq (s : State) (ok : Bool) : execEvWriteComplete ok s =
    if s.msc.state = .dataOut ∧ s.msc.op = .write ∧
        (ok → s.msc.transferred = s.msc.intentLen ∧ s.msc.awaitingDrain = false) then
      if (writeEnded s ok).msc.transferred < (writeEnded s ok).msc.requested then
        .next (stallMsc (writeEnded s ok) .out)
      else thenRun (sendCsw (writeEnded s ok)) fun u => .next (armOut u)
    else .refused .notificationRequire := rfl

theorem bulkRun_writeEnded (s : State) (ok : Bool) : BulkRun s (writeEnded s ok) := by
  unfold writeEnded
  refine .tail ?_ (.transport _)
  cases ok with
  | true => exact BulkRun.op (.transport _)
  | false => exact .tail (.tail (.tail .refl (.transport _)) (.sense _)) (.transport _)

theorem bulkRun_evWriteComplete {ok : Bool} (h : execEvWriteComplete ok s = .next t) : BulkRun s t := by
  rw [execEvWriteComplete_eq] at h
  split at h
  · split at h
    · cases h; exact (bulkRun_writeEnded s ok).trans (bulkRun_stallMsc _ _)
    · obtain ⟨u, hu, hnext⟩ := thenRun_next h
      cases hnext
      exact ((bulkRun_writeEnded s ok).trans (bulkRun_sendCsw hu)).trans (bulkRun_armOut u)
  · cases h

theorem bulkRun_startFailed (s : State) (r : SenseReason) (c : BotCase) (d : Dir) :
    BulkRun s (startFailed s r c d) :=
  ((bulkRun_mediumError s r).tail (.transport _)).trans (bulkRun_stallWith _ _ _ _)

theorem bulkRun_beginIn {cmd : ScsiCmd} {dlen : Nat} (h : beginIn s cmd dlen = .next t) : BulkRun s t := by
  unfold beginIn at h
  dsimp only at h
  split at h
  · cases h; exact .tail (.tail .refl (.transport _)) (.transport _)
  · split at h
    · split at h <;> cases h
      · exact .tail (.tail (.tail .refl (.transport _)) (.output _)) (.transport _)
      · exact .trans (.tail (.tail .refl (.transport _)) (.output _)) (bulkRun_startFailed _ _ _ _)
    · exact .trans (.tail (.tail .refl (.transport _)) (.transport _)) (bulkRun_pumpIn h)

theorem bulkRun_beginOut {cmd : ScsiCmd} {dlen : Nat} (h : beginOut s cmd dlen = .next t) : BulkRun s t := by
  unfold beginOut at h
  dsimp only at h
  split at h
  · split at h <;> cases h
    · exact .trans (.tail (.tail .refl (.transport _)) (.output _)) (bulkRun_startFailed _ _ _ _)
    · exact .tail (.tail (.tail .refl (.transport _)) (.output _)) (.transport _)
  · cases h; exact .tail (.tail .refl (.transport _)) (.transport _)

theorem bulkRun_cswWith {st : Byte} {r : Nat} (h : cswWith s st r = .next t) : BulkRun s t :=
  (BulkRun.op (.transport _)).trans (bulkRun_sendCsw h)

theorem bulkRun_runCase {c : BotCase} {cmd : ScsiCmd} {dlen : Nat} (h : runCase c cmd dlen s = .next t) :
    BulkRun s t := by
  have hstall {st : Byte} {r : Nat} {d : Dir}
      (h : Host.Outcome.next (φ := Fault) (ρ := Refusal) (stallWith s st r d) = .next t) : BulkRun s t := by
    cases h
    exact bulkRun_stallWith ..
  cases c with
  | c1 => exact bulkRun_cswWith h
  | c2 => exact bulkRun_cswWith h
  | c3 => exact bulkRun_cswWith h
  | c4 => exact hstall h
  | c5 => exact bulkRun_beginIn h
  | c6 => exact bulkRun_beginIn h
  | c7 => exact hstall h
  | c8 => exact hstall h
  | c9 => exact hstall h
  | c10 => exact hstall h
  | c11 => exact hstall h
  | c12 => exact bulkRun_beginOut h
  | c13 => exact hstall h

/-! ## The evaluator -/

/-- The driver asked whether the unit is ready, and for its size, and the size recorded (44_scsi.md R232). -/
def sizeAsked (s : State) : State :=
  cacheBlockSize (askInfo (askReady s s.msc.lun) s.msc.lun) s.msc.lun (s.drvOf s.msc.lun).blockSize

theorem bulkRun_askReady (s : State) (l : Lun) : BulkRun s (askReady s l) := .op (.output _)

theorem bulkRun_sizeAsked (s : State) : BulkRun s (sizeAsked s) :=
  .tail (.tail (.tail .refl (.output _)) (.output _)) (.transport _)

theorem bulkRun_evalFail (s : State) (r : SenseReason) : BulkRun s (evalFail s r).s := .op (.sense _)

theorem bulkRun_evalReadCapacity10 (s : State) : BulkRun s (evalReadCapacity10 s).s := by
  unfold evalReadCapacity10
  dsimp only
  split
  · exact (bulkRun_askReady s _).trans (bulkRun_evalFail _ _)
  · refine (bulkRun_sizeAsked s).trans ?_
    split
    · exact bulkRun_evalFail _ _
    · exact BulkRun.op (.transport _)

theorem bulkRun_evalRead10 (s : State) (a : BitVec 32) (n : BitVec 16) : BulkRun s (evalRead10 s a n).s := by
  unfold evalRead10
  dsimp only
  split
  · exact .refl
  · split
    · exact (bulkRun_askReady s _).trans (bulkRun_evalFail _ _)
    · refine (bulkRun_sizeAsked s).trans ?_
      split
      · exact bulkRun_evalFail _ _
      · exact BulkRun.op (.transport _)

theorem bulkRun_evalWrite10 (s : State) (a : BitVec 32) (n : BitVec 16) : BulkRun s (evalWrite10 s a n).s := by
  unfold evalWrite10
  dsimp only
  split
  · exact .refl
  · split
    · exact (bulkRun_askReady s _).trans (bulkRun_evalFail _ _)
    · refine (bulkRun_sizeAsked s).trans ?_
      split
      · exact bulkRun_evalFail _ _
      · split
        · exact bulkRun_evalFail _ _
        · exact .refl

theorem bulkRun_evalCmd (cmd : ScsiCmd) (s : State) : BulkRun s (evalCmd cmd s).s := by
  cases cmd with
  | testUnitReady =>
    simp only [evalCmd, evalTestUnitReady]
    split
    · exact bulkRun_askReady s _
    · exact (bulkRun_askReady s _).trans (bulkRun_evalFail _ _)
  | requestSense =>
    simp only [evalCmd, evalRequestSense]
    split
    · exact .tail (.tail .refl (.transport _)) (.sense _)
    · exact BulkRun.op (.transport _)
  | inquiry => exact BulkRun.op (.transport _)
  | modeSense6 => exact .tail (.tail (.tail .refl (.output _)) (.transport _)) (.transport _)
  | startStopUnit st ej =>
    simp only [evalCmd, evalStartStopUnit]
    split
    · exact BulkRun.op (.output _)
    · exact .trans (BulkRun.op (.output _)) (bulkRun_evalFail _ _)
  | readCapacity10 => exact bulkRun_evalReadCapacity10 s
  | read10 a n => exact bulkRun_evalRead10 s a n
  | write10 a n => exact bulkRun_evalWrite10 s a n
  | unknown op => exact bulkRun_evalFail s _

theorem bulkRun_latchCbw (s : State) (w : Cbw) : BulkRun s (latchCbw s w) :=
  (BulkRun.op (.transport _)).trans (bulkRun_armOut _)

theorem bulkRun_evaluate (h : evaluate s = .next t) : BulkRun s t := by
  unfold evaluate at h
  dsimp only at h
  refine (bulkRun_evalCmd (scsiOf s.cfg s.msc.cbw.cb) s).trans ?_
  split at h
  · exact (BulkRun.op (.transport _)).trans (bulkRun_runCase h)
  · exact ((BulkRun.op (.transport _)).tail (.transport _)).trans (bulkRun_runCase h)

theorem bulkRun_onMscOut {n buf : Nat} (h : onMscOut s n buf = .next t) : BulkRun s t := by
  unfold onMscOut at h
  split at h
  · obtain ⟨-, hnext⟩ := readMem_next h
    dsimp only at hnext
    split at hnext
    · exact (bulkRun_latchCbw s _).trans (bulkRun_evaluate hnext)
    · cases hnext; exact bulkRun_badCbw s
  · exact bulkRun_onDataOutPacket h
  · cases h; exact bulkRun_badCbw s
  · cases h; exact bulkRun_badCbw s
  · cases h; exact bulkRun_badCbw s
  · cases h; exact .refl

end

end Sys2Proof.Machine
end

section
/-! # What every step keeps: memory, the session, the configuration gate (O6, O7, O9)

The commands that are neither a run of the transport's nor of the engine's operations, the consumption of a
completion, and then the invariants, each a case split over the rules. -/

namespace Sys2Proof.Machine

/-! ## Sessions and storage operations that end -/

theorem unwind_eq (s : State) : unwind s =
    { s with outputs := s.outputs ++ unwound s.msc, msc := { s.msc with op := .none } } := by
  unfold unwind unwound
  cases s.msc.op with
  | none => simp only [List.append_nil]; rfl
  | read => rfl
  | write => rfl

theorem report_eq (s : State) (ok : Bool) :
    (if s.cs.cbValid then s.emit (.completion s.cs.cbId ok) else s) =
      { s with outputs := s.outputs ++ s.cs.report ok } := by
  unfold Session.report
  cases s.cs.cbValid with
  | false => simp
  | true => rfl

theorem abortSession_eq (s : State) : abortSession s =
    { s with cs := s.cs.ended, cteState := .idle, dev := { s.dev with pendingValid := false }
             outputs := s.outputs ++ s.cs.report false } := by
  unfold abortSession
  rw [report_eq]
  rfl

/-- The pending address applied and announced, if there is one (41_control_engine.md R138). -/
theorem completeSession_eq (s : State) : completeSession s =
    { s with cs := s.cs.ended, cteState := .idle
             dev := if s.dev.pendingValid = true then
               { s.dev with address := s.dev.pendingAddress, pendingValid := false } else s.dev
             outputs := s.outputs ++ s.cs.report true ++
               if s.dev.pendingValid = true then [.setDeviceAddress s.dev.pendingAddress] else [] } := by
  unfold completeSession
  rw [report_eq]
  cases hp : s.dev.pendingValid with
  | false => simp [hp]; rfl
  | true =>
    simp only [hp, if_true]
    rfl

/-! ## The arms of a bulk endpoint, and the resets -/

theorem armOut_frame (s : State) : armOut s = { s with eps := (armOut s).eps } := by
  unfold armOut armBuf
  dsimp only
  split
  · rw [armIn_frame]
  · rfl

theorem epInit_eps_congr {s t : State} (hc : t.cfg = s.cfg) (he : t.eps = s.eps) : (epInit t).eps = (epInit s).eps := by
  obtain ⟨cfg, eps⟩ := s
  obtain ⟨cfg', eps'⟩ := t
  obtain rfl : cfg' = cfg := hc
  obtain rfl : eps' = eps := he
  rw [epInit_eq_armStore, epInit_eq_armStore]
  rfl

theorem stackInit_eq (s : State) : stackInit s =
    { s with eps := (epInit s).eps, ep0Hold := false, tcq := [], tcIrqEn := true, cteState := .idle
             cs := { s.cs with valid := false, cbValid := false, needsZlp := false, returningShort := false }
             dev := { s.dev with configurationValue := 0, pendingValid := false, address := 0 }
             msc := { s.msc.resetTransient with state := .idle }, sense := ⟨0, 0⟩ } := by
  have heps : (epInit (s.setIrq true)).eps = (epInit s).eps := epInit_eps_congr rfl rfl
  unfold stackInit
  rw [epInit_frame, heps]
  rfl

theorem busReset_eq (s : State) : busReset s =
    { s with eps := (epInit s).eps, ep0Hold := false, tcq := [], cteState := .idle
             cs := if s.cteState ≠ .idle then s.cs.ended else s.cs
             dev := { s.dev with configurationValue := 0, pendingValid := false, address := 0 }
             msc := { s.msc.resetTransient with state := .idle }
             outputs := s.outputs ++ (if s.cteState ≠ .idle then s.cs.report false else []) ++ unwound s.msc } := by
  unfold busReset
  by_cases h : s.cteState = .idle
  · have heps : (epInit (unwind s)).eps = (epInit s).eps := by rw [unwind_eq]; exact epInit_eps_congr rfl rfl
    simp only [h, ne_eq, not_true_eq_false, if_false, List.append_nil]
    rw [epInit_frame, heps, unwind_eq, ← h]
    rfl
  · have heps : (epInit (unwind (abortSession s))).eps = (epInit s).eps := by
      rw [unwind_eq, abortSession_eq]; exact epInit_eps_congr rfl rfl
    simp only [h, ne_eq, not_false_eq_true, if_true, raise]
    rw [epInit_frame, heps, unwind_eq, abortSession_eq]
    rfl

theorem setConfigBody_frame (s : State) (v : Nat) : setConfigBody s v =
    { s with eps := (setConfigBody s v).eps, tcq := (setConfigBody s v).tcq
             dev := { s.dev with configurationValue := (setConfigBody s v).dev.configurationValue }
             msc := (setConfigBody s v).msc, outputs := (setConfigBody s v).outputs } := by
  unfold setConfigBody
  dsimp only
  rw [unwind_eq]
  split
  · split
    · rw [armOut_frame]; rfl
    · rfl
  · rfl

theorem setAddressBody_frame (s : State) (a : Nat) : setAddressBody s a =
    { s with dev := { s.dev with pendingAddress := (setAddressBody s a).dev.pendingAddress
                                 pendingValid := (setAddressBody s a).dev.pendingValid } } := by
  unfold setAddressBody
  split <;> rfl

/-! ## The consumption of a completion -/

/-- The head is consumed, and its descriptor's count and address go to the handler (40_arbiter.md R107). -/
theorem takeHead_eq {s : State} {x : Tc} {rest : List Tc} (hq : s.tcq = x :: rest) : takeHead s =
    handle (consumed s x rest) x ((s.epDir x.e x.d).bd (s.rd x.e x.d)).count
      ((s.epDir x.e x.d).bd (s.rd x.e x.d)).addr := by
  unfold takeHead
  rw [hq]

/-- Endpoint 0 belongs to the engine, every other endpoint to the transport or to another owner (R114). -/
theorem handle_run {s t : State} {x : Tc} {n buf : Nat} (h : handle s x n buf = .next t) :
    (x.e = 0 ∧ EngineRun s t) ∨ (x.e ≠ 0 ∧ BulkRun s t) := by
  unfold handle at h
  split at h
  · next he =>
    refine .inl ⟨he, ?_⟩
    split at h
    · exact engineRun_onCteSetup h
    · exact engineRun_onCteIn h
    · exact engineRun_onCteOut h
  · next he =>
    refine .inr ⟨he, ?_⟩
    split at h
    · exact bulkRun_onMscOut h
    · split at h
      · exact bulkRun_onMscIn h
      · cases h; exact .op (.output _)

/-! ## Memory and the configuration -/

theorem BulkRun.keepsMemory {s t : State} (h : BulkRun s t) : t.cfg = s.cfg ∧ (s.memoryOk → t.memoryOk) :=
  ⟨by rw [h.frame], h.memoryOk⟩

theorem EngineRun.keepsMemory {s t : State} (h : EngineRun s t) : t.cfg = s.cfg ∧ (s.memoryOk → t.memoryOk) :=
  ⟨by rw [h.frame.2], h.memoryOk⟩

/-- No rule changes the configuration, and every rule writes memory through `Memory.writeBytes`. -/
theorem Rule.keepsMemory {i : Instr} {s t : State} (h : Rule i s t) :
    t.cfg = s.cfg ∧ (s.memoryOk → t.memoryOk) := by
  unfold State.memoryOk
  cases h with
  | answer r => exact ⟨rfl, id⟩
  | output o => exact ⟨rfl, id⟩
  | handshake w => exact ⟨rfl, id⟩
  | driverAnswer l x => exact ⟨rfl, id⟩
  | mask b => exact ⟨rfl, id⟩
  | resetSignal b => exact ⟨rfl, id⟩
  | arm e d a n => rw [armIn_frame]; exact ⟨rfl, id⟩
  | setHalt e d => rw [setHaltIn_frame]; exact ⟨rfl, id⟩
  | clearHalt e d he h => exact (bulkRun_clearHaltBody h).keepsMemory
  | epInit => rw [epInit_frame]; exact ⟨rfl, id⟩
  | accept cb => exact (engineRun_acceptBody s cb).keepsMemory
  | controlReturn p a r hs hr h => exact (engineRun_controlReturnBody h).keepsMemory
  | receive b x k => exact (engineRun_receiveBody s b x k).keepsMemory
  | reject => exact (engineRun_rejectBody s 8).keepsMemory
  | holdAddress a => rw [setAddressBody_frame]; exact ⟨rfl, id⟩
  | setConfig v => rw [setConfigBody_frame]; exact ⟨rfl, id⟩
  | stackInit => rw [stackInit_eq]; exact ⟨rfl, id⟩
  | busReset => rw [busReset_eq]; exact ⟨rfl, id⟩
  | blockReady p l h => exact (bulkRun_evBlockReady h).keepsMemory
  | readComplete ok h => exact (bulkRun_evReadComplete h).keepsMemory
  | writeDataHandled h => exact (bulkRun_evWriteDataHandled h).keepsMemory
  | writeComplete ok h => exact (bulkRun_evWriteComplete h).keepsMemory
  | mscReset => exact (bulkRun_mscResetBody s).keepsMemory
  | haltCleared d hc hd hn h => exact (bulkRun_haltCleared h).keepsMemory
  | sendCsw hc hs h => exact (bulkRun_sendCsw h).keepsMemory
  | command cmd => exact (bulkRun_evalCmd cmd s).keepsMemory
  | takeOut e tog b hh h => rw [takeOut_next h]; exact ⟨rfl, fun hs => Memory.wf_writeBytes hs _ _⟩
  | sendIn e w => exact ⟨rfl, id⟩
  | takeSetup b hh h =>
    rw [takeSetup_next h, setupTaken_frame]
    exact ⟨rfl, fun hs => Memory.wf_writeBytes hs _ _⟩
  | takeHead x rest hq hi h =>
    rw [takeHead_eq hq] at h
    obtain ⟨-, hrun⟩ | ⟨-, hrun⟩ := handle_run h
    · exact hrun.keepsMemory
    · exact hrun.keepsMemory

/-- `Rule.keepsMemory`, of what the rule makes of a configuration. -/
theorem Rule.cfg {i : Instr} {s t : State} (h : Rule i s t) : t.cfg = s.cfg := h.keepsMemory.1

/-! ### Bytes stored, bytes copied -/

section
variable {s : State} (hm : s.memoryOk) (a : Nat) (bs : List Byte)
include hm

theorem store_bytes : (s.setMem (Memory.writeBytes s.mem a bs)).bytes a bs.length = bs := by
  refine List.ext_getElem (by simp) fun j h1 h2 => ?_
  have hj : j < bs.length := h2
  exact (Memory.getElem_readBytes _ a _ j hj).trans (Memory.read_writeBytes_inside hm a bs hj)

theorem store_sameOutside : SameMemoryOutside s (s.setMem (Memory.writeBytes s.mem a bs)) a bs.length :=
  fun _ hx => Memory.read_writeBytes_outside hm a bs hx

theorem copy_copied (src n : Nat) :
    Copied s (s.setMem (Memory.writeBytes s.mem a (s.bytes src n))) a src n := by
  intro j hj
  have hj' : j < (s.bytes src n).length := by simpa using hj
  exact (Memory.read_writeBytes_inside hm a _ hj').trans (Memory.getElem_readBytes s.mem src n j hj)

theorem copy_sameOutside (src n : Nat) :
    SameMemoryOutside s (s.setMem (Memory.writeBytes s.mem a (s.bytes src n))) a n := by
  have := store_sameOutside hm a (s.bytes src n)
  rwa [State.length_bytes] at this

end

/-! ### What the environment may write -/

theorem rangesDisjoint_iff (addr n : Nat) (b : Nat × Nat) : rangesDisjoint (addr, n) b = true ↔
    ¬∃ x, (addr ≤ x ∧ x < addr + n) ∧ b.1 ≤ x ∧ x < b.1 + b.2 := by
  simp only [rangesDisjoint, decide_eq_true_eq]
  constructor
  · rintro h ⟨x, hx⟩
    omega
  · intro h
    by_contra hno
    exact h ⟨max addr b.1, by omega⟩

theorem step_memWrite {s : State} {addr : Nat} {bs : List Byte} {rest : List Input} (hwf : s.cfg.wf = true)
    (hr : s.busResetPending = true → s.tcIrqEn = false) (hin : s.inputs = .memWrite addr bs :: rest) :
    step s = envWrite addr bs (s.setInputs rest) := by
  have hno : ¬(s.busResetPending = true ∧ s.tcIrqEn = true) := fun ⟨hp, hi⟩ => by simp [hr hp] at hi
  unfold step
  rw [hin]
  simp [unlessReset, hwf, hno, runInput]

/-- Settles O6: `Rule.keepsMemory` for the rules; a write of the environment is `envWrite`, and touching a buffer is
`rangesDisjoint` being false. -/
theorem stepKeepsMemoryCanonical : Obligations.StepKeepsMemoryCanonical := by
  unfold Obligations.StepKeepsMemoryCanonical
  refine ⟨fun s t hs h => ?_, fun s addr bs rest hwf hr hm hin => ?_⟩
  · obtain ⟨-, u, hu, ht⟩ := step_cases h
    have hIu : u.cfg = s.cfg ∧ u.memoryOk := by
      obtain rfl | ⟨rest, rfl⟩ := hu
      · exact ⟨rfl, hs⟩
      · exact ⟨rfl, hs⟩
    obtain rfl | ⟨i, -, hran⟩ | ⟨a, bs, rfl⟩ := ht
    · exact hIu.symm
    · refine (hran.keeps (I := fun v => v.memoryOk ∧ v.cfg = s.cfg) (fun v w hr hv => ?_) hIu.symm)
      exact ⟨hr.keepsMemory.2 hv.1, hr.cfg.trans hv.2⟩
    · exact ⟨Memory.wf_writeBytes hIu.2 a bs, hIu.1⟩
  · have hstep : step s = envWrite addr bs (s.setInputs rest) := step_memWrite hwf hr hin
    have hforeign : (s.setInputs rest).foreignBuffers = s.foreignBuffers := rfl
    dsimp only
    refine ⟨fun ⟨b, hb, ht⟩ => ?_, fun hno hfit => ?_⟩
    · have hall : ¬s.foreignBuffers.all (rangesDisjoint (addr, bs.length)) = true := fun hall =>
        (rangesDisjoint_iff addr bs.length b).1 (List.all_eq_true.1 hall b hb) ht
      rw [hstep, envWrite, hforeign, if_neg hall]
    · have hall : s.foreignBuffers.all (rangesDisjoint (addr, bs.length)) = true :=
        List.all_eq_true.2 fun b hb => (rangesDisjoint_iff addr bs.length b).2 (hno b hb)
      refine ⟨_, ?_, store_bytes (s := s.setInputs rest) hm addr bs,
        store_sameOutside (s := s.setInputs rest) hm addr bs, rfl⟩
      rw [hstep, envWrite, hforeign, if_pos hall]
      exact writeMem_ok hfit

end Sys2Proof.Machine
end

section
/-! # The rules of the engine, and the session (O7)

What each rule of 41_control_engine.md leaves, said once; then what a rule does to the session, and the invariant. -/

namespace Sys2Proof.Machine

/-! ## The chunks of a control IN stage -/

/-- The bytes of the next chunk (41_control_engine.md R124). -/
def State.chunkLen (s : State) : Nat := min s.cs.remaining s.cfg.mps0

/-- The session after a chunk. -/
def Session.chunkSent (c : Session) (mps0 : Nat) : Session :=
  { c with
    cursor := c.cursor + min c.remaining mps0, remaining := c.remaining - min c.remaining mps0
    lastLen := min c.remaining mps0
    needsZlp := c.needsZlp ||
      zlpNeeded mps0 (min c.remaining mps0) (c.remaining - min c.remaining mps0) c.returningShort }

/-- The chunk in its packet buffer. -/
def chunkStored (s : State) : State :=
  s.setMem (Memory.writeBytes s.mem (s.nextBuf 0 .inp) (s.bytes s.cs.cursor s.chunkLen))

/-- The chunk stored, offered, and counted. -/
def chunkSent (s : State) : State :=
  (armIn (chunkStored s) 0 .inp (s.nextBuf 0 .inp) s.chunkLen).setCs (s.cs.chunkSent s.cfg.mps0)

theorem chunkSent_frame (s : State) : chunkSent s =
    { s with eps := (armIn (chunkStored s) 0 .inp (s.nextBuf 0 .inp) s.chunkLen).eps, mem := (chunkStored s).mem
             cs := s.cs.chunkSent s.cfg.mps0 } := by
  unfold chunkSent
  rw [armIn_frame]
  rfl

theorem sendChunk_of_copied {s : State} (h : copyMem s (s.nextBuf 0 .inp) s.cs.cursor s.chunkLen =
    .next (chunkStored s)) : sendChunk s = .next (chunkSent s) := by
  unfold sendChunk
  dsimp only
  change thenRun (copyMem s (s.nextBuf 0 .inp) s.cs.cursor s.chunkLen) _ = _
  rw [h, thenRun_next_eq]
  have hcs : (armIn (chunkStored s) 0 .inp (s.nextBuf 0 .inp) s.chunkLen).cs = s.cs := by rw [armIn_frame]; rfl
  have hcfg : (armIn (chunkStored s) 0 .inp (s.nextBuf 0 .inp) s.chunkLen).cfg = s.cfg := armIn_cfg ..
  have hcount (u : State) (hu : u.cs = s.cs) (hc : u.cfg = s.cfg) : u.setCs { u.cs with
      cursor := u.cs.cursor + s.chunkLen, remaining := u.cs.remaining - s.chunkLen, lastLen := s.chunkLen
      needsZlp := u.cs.needsZlp ||
        zlpNeeded u.cfg.mps0 s.chunkLen (u.cs.remaining - s.chunkLen) u.cs.returningShort } =
      u.setCs (s.cs.chunkSent s.cfg.mps0) := by rw [hu, hc]; rfl
  exact congrArg Host.Outcome.next (hcount _ hcs hcfg)

theorem sendChunk_next {s t : State} (h : sendChunk s = .next t) : t = chunkSent s := by
  obtain ⟨u, hu, -⟩ := thenRun_next h
  have hcopied : copyMem s (s.nextBuf 0 .inp) s.cs.cursor s.chunkLen = .next (chunkStored s) :=
    hu.trans (congrArg _ (copyMem_next hu))
  rw [sendChunk_of_copied hcopied] at h
  cases h
  rfl

theorem sendChunk_ok {s : State} (hsrc : s.cs.cursor + s.chunkLen ≤ s.cfg.memSize)
    (hdst : s.nextBuf 0 .inp + s.chunkLen ≤ s.cfg.memSize) : sendChunk s = .next (chunkSent s) :=
  sendChunk_of_copied (copyMem_ok hsrc hdst)

/-! ## The dispositions -/

/-- The session a control return opens (R123). -/
def returnOpened (s : State) (ptr avail req : Nat) : State :=
  ((s.setCs { s.cs with
    direction := .inp, cursor := ptr, remaining := min avail req, returningShort := returningShort avail req
    cbValid := false, needsZlp := false }).setCte .dataIn).lendSession (ptr, avail)

theorem controlReturnBody_eq (s : State) (p a r : Nat) : controlReturnBody s p a r =
    thenRun (sendChunk (returnOpened s p a r)) fun u => .next ((armEp0Out u).setHold false) := rfl

theorem controlReturnBody_next {s t : State} {p a r : Nat} (h : controlReturnBody s p a r = .next t) :
    t = (armEp0Out (chunkSent (returnOpened s p a r))).setHold false := by
  rw [controlReturnBody_eq] at h
  obtain ⟨u, hu, hnext⟩ := thenRun_next h
  cases hnext
  rw [sendChunk_next hu]

theorem armEp0Out_frame (s : State) : armEp0Out s = { s with eps := (armEp0Out s).eps } := armIn_frame ..
theorem armEp0Zlp_frame (s : State) : armEp0Zlp s = { s with eps := (armEp0Zlp s).eps } := armIn_frame ..

/-- The session that waits for its status stage, without data (R134). -/
def statusOpened (s : State) (cb : Option Nat) : State :=
  (((s.setCs { s.cs with direction := .out, remaining := 0, cbValid := cb.isSome, cbId := cb.getD s.cs.cbId }).setCte
    .status).setHold false).lendSession (0, 0)

theorem acceptBody_eq (s : State) (cb : Option Nat) : acceptBody s cb = armEp0Out (armEp0Zlp (statusOpened s cb)) := rfl

/-- The session that receives (R129). -/
def receiveOpened (s : State) (buf expected cb : Nat) : State :=
  (((s.setCs { s.cs with direction := .out, cursor := buf, remaining := expected, cbValid := true, cbId := cb }).setHold
    false).lendSession (buf, expected)).setCte (if expected = 0 then .status else .dataOut)

theorem receiveBody_eq (s : State) (b x k : Nat) : receiveBody s b x k =
    armEp0Out (if x = 0 then armEp0Zlp (receiveOpened s b x k) else receiveOpened s b x k) := by
  unfold receiveBody receiveOpened
  split <;> rfl

/-! ## The halts of endpoint 0 -/

theorem haltEp0_frame (s : State) : haltEp0 s =
    { s with eps := (haltEp0 s).eps, tcq := (haltEp0 s).tcq
             msc := { s.msc with cswArmed := (haltEp0 s).msc.cswArmed } } := by
  unfold haltEp0
  rw [setHaltIn_frame, setHaltIn_frame]

/-- Endpoint 0 as `REJECT` leaves it: IN halted, and OUT offered or halted (R135). -/
def rejected (s : State) (n : Nat) : State :=
  if n = 8 ∧ setupDirection s.setup = .inp ∧ s.setup.wLength ≠ 0 then armEp0Out (setHaltIn s .cte 0 .inp)
  else haltEp0 s

theorem rejected_frame (s : State) (n : Nat) : rejected s n =
    { s with eps := (rejected s n).eps, tcq := (rejected s n).tcq
             msc := { s.msc with cswArmed := (rejected s n).msc.cswArmed } } := by
  unfold rejected
  split
  · rw [armEp0Out_frame, setHaltIn_frame]
  · rw [haltEp0_frame]

theorem rejectBody_eq (s : State) (n : Nat) : rejectBody s n =
    { rejected (s.setHold false) n with cs := s.cs.ended, cteState := .idle } := by
  have h : rejectBody s n = (destroySession (rejected (s.setHold false) n)).setCte .idle := rfl
  rw [h, rejected_frame]
  rfl

theorem localProtocol_eq (s : State) : raise s .localProtocolEp0 =
    { haltEp0 s with cs := s.cs.ended, cteState := .idle, dev := { s.dev with pendingValid := false }
                     outputs := s.outputs ++ s.cs.report false } := by
  change abortSession (haltEp0 s) = _
  rw [abortSession_eq, haltEp0_frame]

/-! ## A SETUP arrives -/

/-- Endpoint 0 when a SETUP is consumed: IN withdrawn, both toggles 1 (R121). -/
def toggled (s : State) : State :=
  ((cancel s 0 .inp).onDir 0 .inp fun x => { x with nextToggle := true }).onDir 0 .out fun x =>
    { x with nextToggle := true }

theorem toggled_frame (s : State) : toggled s = { s with eps := (toggled s).eps } := rfl

/-- An unfinished session fails. -/
def sessionFailed (s : State) : State := if s.cteState ≠ .idle then abortSession s else s

theorem sessionFailed_frame (s : State) : sessionFailed s =
    { s with cs := (sessionFailed s).cs, cteState := (sessionFailed s).cteState, dev := (sessionFailed s).dev
             outputs := (sessionFailed s).outputs } := by
  unfold sessionFailed
  split
  · rw [abortSession_eq]
  · rfl

theorem setupArrived_eq (s : State) : setupArrived s =
    ((toggled (sessionFailed s)).setCs freshSession).setCte .setupReceived := rfl

/-- What `CTE_SETUP` leaves of a packet of 8 bytes. -/
def setupLatched (s : State) (p : SetupPacket) : State :=
  (((setupArrived s).setSetup p).setCs { freshSession with direction := setupDirection p }).emit (.setupRequest p)

theorem onCteSetup_next {s t : State} {n buf : Nat} (h : onCteSetup s n buf = .next t) :
    (n ≠ 8 ∧ t = rejectBody (setupArrived s) n) ∨
      (n = 8 ∧ t = setupLatched s (SetupPacket.parse ((setupArrived s).bytes buf 8))) := by
  unfold onCteSetup at h
  dsimp only at h
  split at h
  · next hn => cases h; exact .inl ⟨hn, rfl⟩
  · next hn =>
    obtain ⟨-, hnext⟩ := readMem_next h
    cases hnext
    exact .inr ⟨not_not.1 hn, rfl⟩

/-! ## Data of a control OUT stage -/

/-- The packet stored and counted, and OUT offered again (R130). -/
def dataStored (s : State) (n buf : Nat) : State :=
  armEp0Out ((s.setMem (Memory.writeBytes s.mem s.cs.cursor (s.bytes buf n))).setCs
    { s.cs with cursor := s.cs.cursor + n, remaining := s.cs.remaining - n })

theorem dataStored_frame (s : State) (n buf : Nat) : dataStored s n buf =
    { s with eps := (dataStored s n buf).eps, mem := Memory.writeBytes s.mem s.cs.cursor (s.bytes buf n)
             cs := { s.cs with cursor := s.cs.cursor + n, remaining := s.cs.remaining - n } } := by
  unfold dataStored
  rw [armEp0Out_frame]
  rfl

/-- What the rule does after its copy. -/
def dataTaken (s : State) (n buf : Nat) : State :=
  if n < s.cfg.mps0 ∨ s.cs.remaining - n = 0 then armEp0Zlp ((dataStored s n buf).setCte .status)
  else dataStored s n buf

theorem onDataOut_of_copied {s : State} {n buf : Nat} (hn : n ≤ s.cs.remaining)
    (h : copyMem s s.cs.cursor buf n = .next (s.setMem (Memory.writeBytes s.mem s.cs.cursor (s.bytes buf n)))) :
    onDataOut s n buf = .next (dataTaken s n buf) := by
  unfold onDataOut dataTaken
  rw [if_neg (Nat.not_lt.2 hn), h, thenRun_next_eq]
  have hcfg : (dataStored s n buf).cfg = s.cfg := by rw [dataStored_frame]
  have hrem : (dataStored s n buf).cs.remaining = s.cs.remaining - n := by rw [dataStored_frame]
  change (if n < (dataStored s n buf).cfg.mps0 ∨ (dataStored s n buf).cs.remaining = 0 then
    Host.Outcome.next (armEp0Zlp ((dataStored s n buf).setCte .status)) else .next (dataStored s n buf)) = _
  rw [hcfg, hrem]
  split <;> rfl

theorem onDataOut_next {s t : State} {n buf : Nat} (h : onDataOut s n buf = .next t) :
    (s.cs.remaining < n ∧ t = raise s .localProtocolEp0) ∨ (n ≤ s.cs.remaining ∧ t = dataTaken s n buf) := by
  by_cases hn : n > s.cs.remaining
  · rw [onDataOut, if_pos hn] at h
    cases h
    exact .inl ⟨hn, rfl⟩
  · have hle := Nat.not_lt.1 hn
    obtain ⟨u, hu, -⟩ := thenRun_next ((if_neg hn).symm.trans (by rw [← h, onDataOut]))
    rw [onDataOut_of_copied hle (hu.trans (congrArg _ (copyMem_next hu)))] at h
    cases h
    exact .inr ⟨hle, rfl⟩

/-! ## What a rule does to the session -/

/-- A session has no flag of its own left (10_state.md R34). -/
def Session.isEnded (c : Session) : Prop :=
  c.valid = false ∧ c.cbValid = false ∧ c.needsZlp = false ∧ c.returningShort = false

/-- A rule leaves the session and the stage alone, ends both, or leaves the engine at work: then the session is valid,
or as valid as that of an engine that was at work before. Its counters do not outgrow their bounds. -/
inductive SessionStep (s t : State) : Prop
  | kept (hcs : t.cs = s.cs) (hcte : t.cteState = s.cteState)
  | ended (he : t.cs.isEnded) (hcte : t.cteState = .idle) (hr : t.cs.remaining ≤ s.cs.remaining)
      (hl : t.cs.lastLen ≤ s.cs.lastLen)
  | going (hcte : t.cteState ≠ .idle) (hv : t.cs.valid = true ∨ s.cteState ≠ .idle ∧ t.cs.valid = s.cs.valid)
      (hr : t.cs.remaining ≤ max s.cs.remaining 65535) (hl : t.cs.lastLen ≤ max s.cs.lastLen s.cfg.mps0)

theorem SessionStep.sessionOk {s t : State} (h : SessionStep s t) (hs : s.sessionOk) : t.sessionOk := by
  obtain ⟨hval, hflags⟩ := hs
  cases h with
  | kept hcs hcte => exact ⟨by rw [hcs, hcte]; exact hval, by rw [hcs]; exact hflags⟩
  | ended he hcte hr hl =>
    obtain ⟨h1, h2, h3, h4⟩ := he
    exact ⟨by simp [h1, hcte], fun _ => ⟨h2, h3, h4⟩⟩
  | going hcte hv hr hl =>
    have hvalid : t.cs.valid = true := hv.elim id fun ⟨hc, he⟩ => he.trans (hval.2 hc)
    exact ⟨by simp [hvalid, hcte], fun hf => by simp [hvalid] at hf⟩

section
variable {s t : State}

theorem SessionStep.congr {u : State} (hcfg : u.cfg = s.cfg) (hcs : u.cs = s.cs) (hcte : u.cteState = s.cteState)
    (h : SessionStep u t) : SessionStep s t := by
  cases h with
  | kept h1 h2 => exact .kept (h1.trans hcs) (h2.trans hcte)
  | ended he hi hr hl => exact .ended he hi (hcs ▸ hr) (hcs ▸ hl)
  | going hi hv hr hl => exact .going hi (by rwa [hcs, hcte] at hv) (by rwa [hcs] at hr) (by rwa [hcs, hcfg] at hl)

/-- A rule that ends the session. -/
theorem SessionStep.of_ended (hcs : t.cs = s.cs.ended) (hcte : t.cteState = .idle) : SessionStep s t :=
  .ended (by rw [hcs]; exact ⟨rfl, rfl, rfl, rfl⟩) hcte (by rw [hcs]; exact Nat.zero_le _) (by rw [hcs]; exact le_rfl)

/-- A rule of an engine at work that stays at work, and keeps the session valid. -/
theorem SessionStep.of_going (hs : s.cteState ≠ .idle) (hcte : t.cteState ≠ .idle) (hv : t.cs.valid = s.cs.valid)
    (hr : t.cs.remaining ≤ s.cs.remaining) (hl : t.cs.lastLen ≤ max s.cs.lastLen s.cfg.mps0) : SessionStep s t :=
  .going hcte (.inr ⟨hs, hv⟩) (le_max_of_le_left hr) hl

theorem BulkRun.sessionStep (h : BulkRun s t) : SessionStep s t :=
  .kept (by rw [h.frame]) (by rw [h.frame])

theorem sessionStep_chunkSent (hs : s.cteState ≠ .idle) : SessionStep s (chunkSent s) := by
  refine .of_going hs (by rw [chunkSent_frame]; exact hs) (by rw [chunkSent_frame]; rfl) ?_ ?_
  · rw [chunkSent_frame]
    exact Nat.sub_le ..
  · rw [chunkSent_frame]
    exact le_max_of_le_right (Nat.min_le_right ..)

theorem sessionStep_acceptBody (cb : Option Nat) (hs : s.cteState ≠ .idle) : SessionStep s (acceptBody s cb) := by
  have hcs : (acceptBody s cb).cs = (statusOpened s cb).cs := by
    rw [acceptBody_eq, armEp0Out_frame, armEp0Zlp_frame]
  refine .of_going hs (by simp) ?_ ?_ ?_ <;> rw [hcs]
  · rfl
  · exact Nat.zero_le _
  · exact le_max_left ..

theorem sessionStep_controlReturnBody {p a r : Nat} (hs : s.cteState ≠ .idle) (hr : r ≤ 65535)
    (h : controlReturnBody s p a r = .next t) : SessionStep s t := by
  have hcs : t.cs = (returnOpened s p a r).cs.chunkSent s.cfg.mps0 := by
    rw [controlReturnBody_next h, State.setHold_cs, armEp0Out_frame, chunkSent_frame]
    rfl
  refine .going (by simp [controlReturnBody_cteState h]) (.inr ⟨hs, ?_⟩) ?_ ?_ <;> rw [hcs]
  · rfl
  · have : (min a r) - min (min a r) s.cfg.mps0 ≤ max s.cs.remaining 65535 := by omega
    exact this
  · exact le_max_of_le_right (Nat.min_le_right ..)

theorem sessionStep_receiveBody (b x k : Nat) (hs : s.cteState ≠ .idle) (hx : x ≤ 65535) :
    SessionStep s (receiveBody s b x k) := by
  have hcs : (receiveBody s b x k).cs = (receiveOpened s b x k).cs := by
    rw [receiveBody_eq, armEp0Out_frame]
    split
    · rw [armEp0Zlp_frame]
    · rfl
  refine .going (by rw [receiveBody_cteState]; split <;> simp) (.inr ⟨hs, ?_⟩) ?_ ?_ <;> rw [hcs]
  · rfl
  · exact le_max_of_le_right hx
  · exact le_max_left ..

theorem sessionStep_rejectBody (n : Nat) : SessionStep s (rejectBody s n) := by
  rw [rejectBody_eq]
  exact .of_ended rfl rfl

theorem sessionStep_localProtocol : SessionStep s (raise s .localProtocolEp0) := by
  rw [localProtocol_eq]
  exact .of_ended rfl rfl

theorem sessionStep_onCteSetup {n buf : Nat} (h : onCteSetup s n buf = .next t) : SessionStep s t := by
  obtain ⟨-, rfl⟩ | ⟨-, rfl⟩ := onCteSetup_next h
  · have hcs : (rejectBody (setupArrived s) n).cs = Session.none := by rw [rejectBody_eq]; rfl
    refine .ended ?_ (by rw [rejectBody_eq]) ?_ ?_ <;> rw [hcs]
    · exact ⟨rfl, rfl, rfl, rfl⟩
    · exact Nat.zero_le _
    · exact Nat.zero_le _
  · exact .going (by simp [setupLatched, setupArrived_eq]) (.inl rfl) (Nat.zero_le _) (Nat.zero_le _)

theorem sessionStep_onCteIn (h : onCteIn s = .next t) : SessionStep s t := by
  unfold onCteIn at h
  split at h
  · next hs =>
    have hne : s.cteState ≠ .idle := by simp [hs]
    split at h
    · rw [sendChunk_next h]
      exact sessionStep_chunkSent hne
    · split at h <;> cases h
      · rw [armEp0Zlp_frame]
        exact .of_going hne hne rfl le_rfl (Nat.zero_le _)
      · exact .of_going hne (by simp) rfl le_rfl (le_max_left ..)
  · split at h <;> cases h
    · rw [completeSession_eq]
      exact .of_ended rfl rfl
    · exact .kept rfl rfl
  all_goals cases h; exact .kept rfl rfl

theorem sessionStep_dataTaken (n buf : Nat) (hs : s.cteState ≠ .idle) : SessionStep s (dataTaken s n buf) := by
  unfold dataTaken
  split
  · refine .of_going hs (by simp) ?_ ?_ ?_ <;> rw [armEp0Zlp_frame, dataStored_frame]
    · rfl
    · exact Nat.sub_le ..
    · exact le_max_left ..
  · refine .of_going hs ?_ ?_ ?_ ?_ <;> rw [dataStored_frame]
    · exact hs
    · exact Nat.sub_le ..
    · exact le_max_left ..

/-- Nothing in the session depends on what is armed. -/
theorem SessionStep.armEp0Out (h : SessionStep s t) : SessionStep s (armEp0Out t) := by
  rw [armEp0Out_frame]
  cases h with
  | kept h1 h2 => exact .kept h1 h2
  | ended he hi hr hl => exact .ended he hi hr hl
  | going hi hv hr hl => exact .going hi hv hr hl

theorem sessionStep_onCteOut {n buf : Nat} (h : onCteOut s n buf = .next t) : SessionStep s t := by
  unfold onCteOut at h
  split at h
  · next hs =>
    obtain ⟨-, rfl⟩ | ⟨-, rfl⟩ := onDataOut_next h
    · exact sessionStep_localProtocol
    · exact sessionStep_dataTaken n buf (by simp [hs])
  · split at h <;> cases h
    · refine SessionStep.armEp0Out (.of_ended ?_ ?_) <;> rw [raise, abortSession_eq]
      rfl
    · exact sessionStep_localProtocol
  · split at h
    · split at h <;> cases h
      · refine SessionStep.armEp0Out (.of_ended ?_ ?_) <;> rw [completeSession_eq]
      · exact (SessionStep.kept rfl rfl).armEp0Out
    · cases h; exact sessionStep_localProtocol
  · cases h; exact (SessionStep.kept rfl rfl).armEp0Out
  · cases h; exact .kept rfl rfl

theorem sessionStep_handle {x : Tc} {n buf : Nat} (h : handle s x n buf = .next t) : SessionStep s t := by
  obtain ⟨he, -⟩ | ⟨-, hrun⟩ := handle_run h
  · rw [handle, if_pos he] at h
    split at h
    · exact sessionStep_onCteSetup h
    · exact sessionStep_onCteIn h
    · exact sessionStep_onCteOut h
  · exact hrun.sessionStep

theorem sessionStep_takeHead {x : Tc} {rest : List Tc} (hq : s.tcq = x :: rest) (h : takeHead s = .next t) :
    SessionStep s t := by
  rw [takeHead_eq hq] at h
  exact .congr (u := consumed s x rest) rfl rfl rfl (sessionStep_handle h)

theorem sessionStep_busReset : SessionStep s (busReset s) := by
  rw [busReset_eq]
  by_cases hs : s.cteState = .idle
  · exact .kept (if_neg (not_not.2 hs)) hs.symm
  · exact .of_ended (if_pos hs) rfl

/-- What a rule does to the session. -/
theorem Rule.sessionStep {i : Instr} (h : Rule i s t) : SessionStep s t := by
  have hidle : s.cteState = .setupReceived → s.cteState ≠ .idle := fun hs => by simp [hs]
  cases h with
  | answer r => exact .kept rfl rfl
  | output o => exact .kept rfl rfl
  | handshake w => exact .kept rfl rfl
  | driverAnswer l x => exact .kept rfl rfl
  | mask b => exact .kept rfl rfl
  | resetSignal b => exact .kept rfl rfl
  | arm e d a n => rw [armIn_frame]; exact .kept rfl rfl
  | setHalt e d => rw [setHaltIn_frame]; exact .kept rfl rfl
  | clearHalt e d he h => exact (bulkRun_clearHaltBody h).sessionStep
  | epInit => rw [epInit_frame]; exact .kept rfl rfl
  | accept cb hs => exact sessionStep_acceptBody cb (hidle hs)
  | controlReturn p a r hs hr h => exact sessionStep_controlReturnBody (hidle hs) hr.2 h
  | receive b x k hs hx => exact sessionStep_receiveBody b x k (hidle hs) hx
  | reject => exact sessionStep_rejectBody 8
  | holdAddress a => rw [setAddressBody_frame]; exact .kept rfl rfl
  | setConfig v => rw [setConfigBody_frame]; exact .kept rfl rfl
  | stackInit => rw [stackInit_eq]; exact .ended ⟨rfl, rfl, rfl, rfl⟩ rfl le_rfl le_rfl
  | busReset => exact sessionStep_busReset
  | blockReady p l h => exact (bulkRun_evBlockReady h).sessionStep
  | readComplete ok h => exact (bulkRun_evReadComplete h).sessionStep
  | writeDataHandled h => exact (bulkRun_evWriteDataHandled h).sessionStep
  | writeComplete ok h => exact (bulkRun_evWriteComplete h).sessionStep
  | mscReset => exact (bulkRun_mscResetBody s).sessionStep
  | haltCleared d hc hd hn h => exact (bulkRun_haltCleared h).sessionStep
  | sendCsw hc hs h => exact (bulkRun_sendCsw h).sessionStep
  | command cmd => exact (bulkRun_evalCmd cmd s).sessionStep
  | takeOut e tog b hh h => rw [takeOut_next h]; exact .kept rfl rfl
  | sendIn e w => exact .kept rfl rfl
  | takeSetup b hh h => rw [takeSetup_next h, setupTaken_frame]; exact .kept rfl rfl
  | takeHead x rest hq hi h => exact sessionStep_takeHead hq h

end

/-- Settles O7: what a rule does to the session (`Rule.sessionStep`) keeps it in agreement with the stage. -/
theorem stepKeepsSession : Obligations.StepKeepsSession := by
  unfold Obligations.StepKeepsSession
  intro s t hs h
  exact step_keeps (I := State.sessionOk) (fun _ _ => id) (fun _ _ => id)
    (fun i u v _ _ hr hu => ⟨hr.cfg, hr.sessionStep.sessionOk hu⟩) h hs

end Sys2Proof.Machine
end

section
/-! # The rules of the transport, and its registers (O8, O12, O13, O14)

What each rule of 43_msc_bot.md leaves, said once; then what a rule does to the transport's registers. -/

namespace Sys2Proof.Machine

/-! ## The CSW -/

/-- The bulk endpoint of a direction. -/
def State.bulkEp (s : State) : Dir → EpNum
  | .out => s.cfg.mscOut
  | .inp => s.cfg.mscIn

/-- The CSW the transport's registers give (43_msc_bot.md R191). -/
def State.cswDue (s : State) : List Byte :=
  cswBytes s.msc.currentTag (BitVec.ofNat 32 s.msc.residue) s.msc.status

/-- The CSW built. -/
def cswBuilt (s : State) : State := s.setMsc { s.msc with csw := s.cswDue, state := .csw }

/-- The CSW built and in its packet buffer. -/
def cswStored (s : State) : State :=
  (cswBuilt s).setMem (Memory.writeBytes s.mem (s.nextBuf s.cfg.mscIn .inp) s.cswDue)

/-- The CSW built, stored and offered. -/
def cswOffered (s : State) : State :=
  (armIn (cswStored s) s.cfg.mscIn .inp (s.nextBuf s.cfg.mscIn .inp) 13).setMsc
    { s.msc with csw := s.cswDue, state := .csw, cswArmed := true }

theorem length_cswBytes (tag residue : BitVec 32) (st : Byte) : (cswBytes tag residue st).length = 13 := rfl

@[simp] theorem State.length_cswDue (s : State) : s.cswDue.length = 13 := rfl

theorem cswOffered_frame (s : State) : cswOffered s =
    { s with eps := (cswOffered s).eps, mem := Memory.writeBytes s.mem (s.nextBuf s.cfg.mscIn .inp) s.cswDue
             msc := { s.msc with csw := s.cswDue, state := .csw, cswArmed := true } } := by
  unfold cswOffered
  rw [armIn_frame]
  rfl

section
variable {s : State}

theorem sendCsw_refused (h : s.msc.cswArmed = true ∨ s.msc.inArmed = true) : sendCsw s = .refused .cswRequire :=
  if_pos h

variable (hc : s.msc.cswArmed = false) (hi : s.msc.inArmed = false)
include hc hi

theorem sendCsw_waits (hh : (s.epDir s.cfg.mscIn .inp).halted = true) : sendCsw s = .next (cswBuilt s) := by
  have hb : ((cswBuilt s).epDir s.cfg.mscIn .inp).halted = true := hh
  unfold sendCsw
  rw [if_neg (by simp [hc, hi])]
  exact if_pos hb

theorem sendCsw_of_stored (hh : (s.epDir s.cfg.mscIn .inp).halted = false)
    (hw : writeMem (cswBuilt s) (s.nextBuf s.cfg.mscIn .inp) s.cswDue = .next (cswStored s)) :
    sendCsw s = .next (cswOffered s) := by
  have hb : ¬((cswBuilt s).epDir s.cfg.mscIn .inp).halted = true := by simpa [cswBuilt] using hh
  have harm (u : State) (hu : u.msc = (cswBuilt s).msc) :
      u.setMsc { u.msc with cswArmed := true } =
        u.setMsc { s.msc with csw := s.cswDue, state := .csw, cswArmed := true } := by
    rw [hu]; rfl
  unfold sendCsw
  rw [if_neg (by simp [hc, hi])]
  refine (if_neg hb).trans ?_
  change thenRun (writeMem (cswBuilt s) (s.nextBuf s.cfg.mscIn .inp) s.cswDue) _ = _
  rw [hw, thenRun_next_eq]
  exact congrArg Host.Outcome.next (harm _ (by rw [armIn_frame]; rfl))

theorem sendCsw_offers (hh : (s.epDir s.cfg.mscIn .inp).halted = false)
    (hm : s.nextBuf s.cfg.mscIn .inp + 13 ≤ s.cfg.memSize) : sendCsw s = .next (cswOffered s) :=
  sendCsw_of_stored hc hi hh (writeMem_ok (by simpa [cswBuilt] using hm))

end

theorem sendCsw_next {s t : State} (h : sendCsw s = .next t) : s.msc.cswArmed = false ∧ s.msc.inArmed = false ∧
    (((s.epDir s.cfg.mscIn .inp).halted = true ∧ t = cswBuilt s) ∨
      ((s.epDir s.cfg.mscIn .inp).halted = false ∧ t = cswOffered s)) := by
  by_cases hreq : s.msc.cswArmed = true ∨ s.msc.inArmed = true
  · rw [sendCsw_refused hreq] at h
    cases h
  · obtain ⟨hc, hi⟩ := not_or.1 hreq
    rw [Bool.not_eq_true] at hc hi
    refine ⟨hc, hi, ?_⟩
    cases hh : (s.epDir s.cfg.mscIn .inp).halted with
    | true =>
      rw [sendCsw_waits hc hi hh] at h
      cases h
      exact .inl ⟨rfl, rfl⟩
    | false =>
      have hb : ¬((cswBuilt s).epDir s.cfg.mscIn .inp).halted = true := by simpa [cswBuilt] using hh
      have h' := h
      unfold sendCsw at h'
      rw [if_neg hreq] at h'
      obtain ⟨u, hu, -⟩ := thenRun_next ((if_neg hb).symm.trans h')
      have hw : writeMem (cswBuilt s) (s.nextBuf s.cfg.mscIn .inp) s.cswDue = .next (cswStored s) :=
        hu.trans (congrArg _ (writeMem_next hu).2)
      rw [sendCsw_of_stored hc hi hh hw] at h
      cases h
      exact .inr ⟨rfl, rfl⟩

/-! ## The stall of a bulk endpoint, and the end of a read -/

theorem stallMsc_eq (s : State) (d : Dir) : stallMsc s d =
    (setHaltIn s .msc (s.bulkEp d) d).setMsc { s.msc with state := .stall } := by
  cases d <;> simp [stallMsc, State.bulkEp]

/-- The residue recorded (R200). -/
def residueRecorded (s : State) : State :=
  s.setMsc { s.msc with residue := residueOf s.msc.requested s.msc.transferred }

theorem finishIn_stalls {s : State} (h : s.msc.transferred < s.msc.requested) :
    finishIn s = .next (stallMsc (residueRecorded s) .inp) := if_pos h

theorem finishIn_sends {s : State} (h : s.msc.requested ≤ s.msc.transferred) :
    finishIn s = sendCsw (residueRecorded s) := if_neg (Nat.not_lt.2 h)

/-! ## The packets of a read -/

/-- The bytes of the next packet on bulk IN (R196). -/
def State.packetLen (s : State) : Nat := min s.msc.txRem (s.cfg.mps s.cfg.mscIn .inp)

/-- The next packet, of the response or of the driver's block. -/
def State.packet (s : State) : List Byte :=
  match s.msc.txSrc with
  | .internal => (s.msc.resp.drop s.msc.txPtr).take s.packetLen
  | .driver => s.bytes s.msc.txPtr s.packetLen

/-- The packet in its packet buffer. -/
def packetStored (s : State) : State :=
  s.setMem (Memory.writeBytes s.mem (s.nextBuf s.cfg.mscIn .inp) s.packet)

/-- The transport's registers after a packet is armed. -/
def Msc.packetSent (m : Msc) (n : Nat) : Msc :=
  { m with txPtr := m.txPtr + n, txRem := m.txRem - n, txLast := n, inArmed := true }

/-- The packet stored, offered and counted. -/
def packetSent (s : State) : State :=
  (armIn (packetStored s) s.cfg.mscIn .inp (s.nextBuf s.cfg.mscIn .inp) s.packetLen).setMsc
    (s.msc.packetSent s.packetLen)

theorem packetSent_frame (s : State) : packetSent s =
    { s with eps := (packetSent s).eps, mem := (packetStored s).mem, msc := s.msc.packetSent s.packetLen } := by
  unfold packetSent
  rw [armIn_frame]
  rfl

theorem pumpIn_of_stored {s : State}
    (h : pumpCopy s (s.nextBuf s.cfg.mscIn .inp) s.packetLen = .next (packetStored s)) :
    pumpIn s = .next (packetSent s) := by
  have hsent (u : State) (hu : u.msc = s.msc) : u.setMsc { u.msc with
      txPtr := u.msc.txPtr + s.packetLen, txRem := u.msc.txRem - s.packetLen, txLast := s.packetLen, inArmed := true } =
      u.setMsc (s.msc.packetSent s.packetLen) := by rw [hu]; rfl
  unfold pumpIn
  dsimp only
  change thenRun (pumpCopy s (s.nextBuf s.cfg.mscIn .inp) s.packetLen) _ = _
  rw [h, thenRun_next_eq]
  exact congrArg Host.Outcome.next (hsent _ (by rw [armIn_frame]; rfl))

theorem pumpCopy_next {s t : State} (h : pumpCopy s (s.nextBuf s.cfg.mscIn .inp) s.packetLen = .next t) :
    t = packetStored s := by
  unfold packetStored State.packet
  unfold pumpCopy at h
  cases hsrc : s.msc.txSrc with
  | internal =>
    rw [hsrc] at h
    exact (writeMem_next h).2
  | driver =>
    rw [hsrc] at h
    exact copyMem_next h

theorem pumpIn_next {s t : State} (h : pumpIn s = .next t) : t = packetSent s := by
  obtain ⟨u, hu, -⟩ := thenRun_next h
  have hstored : pumpCopy s (s.nextBuf s.cfg.mscIn .inp) s.packetLen = .next (packetStored s) :=
    hu.trans (congrArg _ (pumpCopy_next hu))
  rw [pumpIn_of_stored hstored] at h
  cases h
  rfl

/-! ## The packets of a write -/

/-- The packet in the driver's buffer. -/
def dataAdded (s : State) (buf n : Nat) : State :=
  packetAdded (s.setMem (Memory.writeBytes s.mem (s.msc.wbufPtr + s.msc.wbufFill) (s.bytes buf n))) n

theorem acceptPacket_next {s t : State} {buf n : Nat} (h : acceptPacket s buf n = .next t) :
    t = raise s .localProtocolMsc ∨
      (n ≤ s.msc.intentLen - s.msc.transferred ∧ n ≤ s.msc.wbufCap - s.msc.wbufFill ∧ t = armOut (dataAdded s buf n)) := by
  rw [acceptPacket_eq] at h
  split at h
  · cases h; exact .inl rfl
  · next hfit =>
    obtain ⟨u, hu, hnext⟩ := thenRun_next h
    cases hnext
    obtain ⟨h1, h2⟩ := not_or.1 hfit
    exact .inr ⟨Nat.not_lt.1 h1, Nat.not_lt.1 h2, by rw [copyMem_next hu]; rfl⟩

/-- The transport's registers after a packet of a write. -/
def Msc.packetAdded (m : Msc) (n : Nat) : Msc :=
  { m with
    wbufFill := m.wbufFill + n, transferred := m.transferred + n
    awaitingDrain := if m.wbufFill + n = m.wbufCap ∨ m.transferred + n = m.intentLen then true else m.awaitingDrain }

theorem packetAdded_frame (s : State) (n : Nat) : packetAdded s n =
    { s with
      msc := s.msc.packetAdded n
      outputs := s.outputs ++ (if s.msc.wbufFill + n = s.msc.wbufCap ∨ s.msc.transferred + n = s.msc.intentLen then
        [.drvWriteBuffer s.msc.wcb true (s.msc.wbufFill + n)] else []) } := by
  by_cases hfull : s.msc.wbufFill + n = s.msc.wbufCap ∨ s.msc.transferred + n = s.msc.intentLen
  · refine (if_pos hfull).trans ?_
    rw [if_pos hfull, Msc.packetAdded, if_pos hfull]
    rfl
  · refine (if_neg hfull).trans ?_
    rw [if_neg hfull, Msc.packetAdded, if_neg hfull, List.append_nil]
    rfl

theorem unwind_msc (s : State) : (unwind s).msc = { s.msc with op := .none } := by rw [unwind_eq]

theorem localProtocolMsc_eq (s : State) : raise s .localProtocolMsc =
    stallWith (unwind s) phaseError (residueOf s.msc.requested s.msc.transferred) .out := rfl

theorem stallWith_eq (s : State) (st : Byte) (r : Nat) (d : Dir) : stallWith s st r d =
    stallMsc (s.setMsc { s.msc with status := st, residue := r }) d := rfl

@[simp] theorem stallMsc_msc (s : State) (d : Dir) : (stallMsc s d).msc = { s.msc with state := .stall } := by
  rw [stallMsc_eq]; rfl

@[simp] theorem armOut_msc (s : State) : (armOut s).msc = s.msc := by rw [armOut_frame]

end Sys2Proof.Machine
end

section
/-! # What a rule does to the transport's registers (O8, O12, O13)

One record per rule (`MscStep`): the CBW's latches, the way out of `NRR`, the order of the counters, the widths. -/

namespace Sys2Proof.Machine

/-! ## The predicates -/

/-- The latched CBW and what is derived from it. -/
def SameLatch (m m' : Msc) : Prop :=
  m'.cbw = m.cbw ∧ m'.lun = m.lun ∧ m'.hostDir = m.hostDir ∧ m'.cbLen = m.cbLen

theorem SameLatch.rfl {m : Msc} : SameLatch m m := ⟨Eq.refl _, Eq.refl _, Eq.refl _, Eq.refl _⟩

theorem SameLatch.trans {m m' m'' : Msc} (h : SameLatch m m') (h' : SameLatch m' m'') : SameLatch m m'' := by
  obtain ⟨h1, h2, h3, h4⟩ := h
  obtain ⟨g1, g2, g3, g4⟩ := h'
  exact ⟨g1.trans h1, g2.trans h2, g3.trans h3, g4.trans h4⟩

/-- `countersOk` and `pumpOk`, of the registers. -/
structure Msc.InOrder (m : Msc) : Prop where
  total : m.transferred ≤ m.requested
  data : m.state = .dataIn ∨ m.state = .dataOut → m.transferred ≤ m.intentLen ∧ m.intentLen ≤ m.requested
  pump : m.state = .dataIn → m.transferred + m.inFlight + m.txRem ≤ m.intentLen
  armed : m.inArmed = true → m.state = .dataIn

theorem State.inOrder_iff (s : State) : s.msc.InOrder ↔ s.countersOk ∧ s.pumpOk :=
  ⟨fun ⟨h1, h2, h3, h4⟩ => ⟨⟨h1, h2⟩, h3, h4⟩, fun ⟨⟨h1, h2⟩, h3, h4⟩ => ⟨h1, h2, h3, h4⟩⟩

/-- The transport's part of `widthsOk`. -/
structure Msc.Fits (m : Msc) : Prop where
  requested : m.requested < 2 ^ 32
  transferred : m.transferred < 2 ^ 32
  residue : m.residue < 2 ^ 32
  intentLen : m.intentLen < 2 ^ 32
  txRem : m.txRem < 2 ^ 32
  txLast : m.txLast ≤ 1023
  wbufCap : m.wbufCap < 2 ^ 32
  wbufFill : m.wbufFill < 2 ^ 32
  cbLen : m.cbLen ≤ 16
  missed : m.missed ≤ 1
  missedLen : m.missedLen ≤ 1023
  caseNo : m.caseNo ≤ 13
  status : m.status.toNat ≤ 2
  resp : m.resp.length = 36
  csw : m.csw.length = 13

/-- Every descriptor's count fits its ten bits. -/
def State.countsFit (s : State) : Prop := ∀ e d k, ((s.epDir e d).bd k).count ≤ 1023

/-- What the driver offers fits `msc.wbuf_cap`. -/
def State.offersFit (s : State) : Prop := ∀ l, (s.drvOf l).capacity < 2 ^ 32

theorem State.widthsOk_iff (s : State) : s.widthsOk ↔
    s.countsFit ∧ (s.cs.remaining ≤ 65535 ∧ s.cs.lastLen ≤ 1023) ∧ s.msc.Fits ∧ s.offersFit := by
  constructor
  · rintro ⟨h0, h1, h2, m1, m2, m3, m4, m5, m6, m7, m8, m9, m10, m11, m12, m13, m14, m15, h3⟩
    exact ⟨h0, ⟨h1, h2⟩, ⟨m1, m2, m3, m4, m5, m6, m7, m8, m9, m10, m11, m12, m13, m14, m15⟩, h3⟩
  · rintro ⟨h0, ⟨h1, h2⟩, ⟨m1, m2, m3, m4, m5, m6, m7, m8, m9, m10, m11, m12, m13, m14, m15⟩, h3⟩
    exact ⟨h0, h1, h2, m1, m2, m3, m4, m5, m6, m7, m8, m9, m10, m11, m12, m13, m14, m15, h3⟩

/-- The instruction consumes a completion. -/
def consumesTc (i : Instr) : Prop := ∃ c x, Consumes c i x

/-- The resets of the block. -/
def isBlockReset (i : Instr) : Prop := i = .stackInit ∨ i = .busReset

/-- The resets of the transport (43_msc_bot.md R170). -/
def isReset (i : Instr) : Prop :=
  i = .mscReset ∨ i = .busReset ∨ i = .stackInit ∨ i = .bulkOnlyMassStorageReset ∨ (∃ v, i = .devSetConfig v) ∨
    ∃ v x, i = .setConfiguration v x

/-- What a rule does to the transport's registers; `w` is what it may rest on about the descriptors. -/
structure MscStep (i : Instr) (w : Prop) (s t : State) : Prop where
  latch : (s.msc.state = .idle ∧ consumesTc i) ∨ SameLatch s.msc t.msc ∨
    (isBlockReset i ∧ t.msc.cbw = s.msc.cbw ∧ t.msc.state = .idle)
  nrr : s.msc.state = .nrr → t.msc.state = .nrr ∨ (isReset i ∧ t.msc.state = .idle)
  idle : s.msc.state = .idle → t.msc.state = .idle ∨ consumesTc i
  order : s.msc.InOrder → t.msc.InOrder
  fits : s.cfg.wf = true → w → s.offersFit → s.msc.InOrder → s.msc.Fits → t.msc.Fits

/-! ## Parts of a rule -/

/-- The end of a data phase: a stall, or a CSW. -/
inductive Msc.EndsData (m : Msc) : Msc → Prop
  | stalled (r : Nat) (hr : r ≤ m.requested) : EndsData m { m with residue := r, state := .stall }
  | answered (r : Nat) (hr : r ≤ m.requested ∨ r = m.residue) (b : List Byte) (hb : b.length = 13) (a : Bool) :
      EndsData m { m with residue := r, csw := b, state := .csw, cswArmed := a }

section
variable {m m' : Msc} (h : m.EndsData m')
include h

theorem Msc.EndsData.latch : SameLatch m m' := by cases h <;> exact SameLatch.rfl

theorem Msc.EndsData.state : m'.state = .stall ∨ m'.state = .csw := by
  cases h with
  | stalled => exact .inl rfl
  | answered => exact .inr rfl

theorem Msc.EndsData.order (ht : m.transferred ≤ m.requested) (hi : m.inArmed = false) : m'.InOrder := by
  cases h with
  | stalled r => exact ⟨ht, by simp, by simp, by simp [hi]⟩
  | answered r hr b hb a => exact ⟨ht, by simp, by simp, by simp [hi]⟩

theorem Msc.EndsData.fits (hf : m.Fits) : m'.Fits := by
  cases h with
  | stalled r hr => exact { hf with residue := Nat.lt_of_le_of_lt hr hf.requested }
  | answered r hr b hb a =>
    refine { hf with residue := ?_, csw := hb }
    obtain hr | rfl := hr
    · exact Nat.lt_of_le_of_lt hr hf.requested
    · exact hf.residue

end

section
variable {s t : State}

theorem sendCsw_endsData (h : sendCsw s = .next t) : s.msc.EndsData t.msc := by
  obtain ⟨-, -, ⟨-, rfl⟩ | ⟨-, rfl⟩⟩ := sendCsw_next h
  · exact .answered s.msc.residue (.inr rfl) s.cswDue rfl s.msc.cswArmed
  · rw [cswOffered_frame]
    exact .answered s.msc.residue (.inr rfl) s.cswDue rfl true

theorem finishIn_endsData (h : finishIn s = .next t) : s.msc.EndsData t.msc := by
  obtain hlt | hle := Nat.lt_or_ge s.msc.transferred s.msc.requested
  · rw [finishIn_stalls hlt] at h
    cases h
    rw [stallMsc_msc]
    exact .stalled _ (Nat.sub_le ..)
  · rw [finishIn_sends hle] at h
    obtain ⟨-, -, ⟨-, rfl⟩ | ⟨-, rfl⟩⟩ := sendCsw_next h
    · exact .answered _ (.inl (Nat.sub_le ..)) _ rfl s.msc.cswArmed
    · rw [cswOffered_frame]
      exact .answered _ (.inl (Nat.sub_le ..)) _ rfl true

theorem stallWith_endsData (st : Byte) {r : Nat} (d : Dir) (hr : r ≤ s.msc.requested) :
    Msc.EndsData { s.msc with status := st } (stallWith s st r d).msc := by
  rw [stallWith_eq, stallMsc_msc]
  exact .stalled r hr

/-- A packet sent is within the intent. -/
theorem Msc.InOrder.packetSent {m : Msc} {n : Nat} (hs : m.state = .dataIn) (hi : m.intentLen ≤ m.requested)
    (ht : m.transferred + m.txRem ≤ m.intentLen) (hn : n ≤ m.txRem) : (m.packetSent n).InOrder := by
  have hd : m.transferred ≤ m.intentLen := by omega
  refine ⟨hd.trans hi, fun _ => ⟨hd, hi⟩, fun _ => ?_, fun _ => hs⟩
  change m.transferred + n + (m.txRem - n) ≤ m.intentLen
  omega

theorem Msc.Fits.packetSent {m : Msc} (h : m.Fits) {n : Nat} (hn : n ≤ 1023) : (m.packetSent n).Fits :=
  { h with txRem := Nat.lt_of_le_of_lt (Nat.sub_le ..) h.txRem, txLast := hn }

theorem State.packetLen_le (s : State) (h : s.cfg.wf = true) : s.packetLen ≤ 1023 :=
  (Nat.min_le_right ..).trans (Config.wf_mps h (Config.wf_mscIn h).2 .inp)

theorem pumpIn_msc (h : pumpIn s = .next t) : t.msc = s.msc.packetSent s.packetLen := by
  rw [pumpIn_next h, packetSent_frame]

end

/-! ## Rules that leave the registers, or clear them -/

section
variable {i : Instr} {w : Prop} {s t : State}

theorem MscStep.same (h : t.msc = s.msc) : MscStep i w s t where
  latch := .inr (.inl (by rw [h]; exact .rfl))
  nrr hs := .inl (h ▸ hs)
  idle hs := .inl (h ▸ hs)
  order hs := h ▸ hs
  fits _ _ _ _ hf := h ▸ hf

/-- `msc.csw_armed` is in none of it. -/
theorem MscStep.cswArmed {a : Bool} (h : t.msc = { s.msc with cswArmed := a }) : MscStep i w s t where
  latch := .inr (.inl (by rw [h]; exact .rfl))
  nrr hs := .inl (by rw [h]; exact hs)
  idle hs := .inl (by rw [h]; exact hs)
  order hs := by rw [h]; exact ⟨hs.total, hs.data, hs.pump, hs.armed⟩
  fits _ _ _ _ hf := by rw [h]; exact { hf with }

theorem EngineRun.mscStep (h : EngineRun s t) : MscStep i w s t :=
  .cswArmed (by obtain ⟨-, hf⟩ := h.frame; rw [hf])

theorem Msc.clearTransient_inOrder (m : Msc) (x : MscState) : ({ m.clearTransient with state := x } : Msc).InOrder :=
  ⟨le_rfl, fun _ => ⟨le_rfl, le_rfl⟩, fun _ => le_rfl, fun h => by cases h⟩

theorem Msc.clearTransient_fits {m : Msc} (h : m.Fits) (x : MscState) :
    ({ m.clearTransient with state := x } : Msc).Fits :=
  { h with
    requested := Nat.two_pow_pos 32, transferred := Nat.two_pow_pos 32, residue := Nat.two_pow_pos 32
    intentLen := Nat.two_pow_pos 32, txRem := Nat.two_pow_pos 32, txLast := Nat.zero_le _
    wbufFill := Nat.two_pow_pos 32, missed := Nat.zero_le _, missedLen := Nat.zero_le _, caseNo := Nat.zero_le _
    status := Nat.zero_le _ }

/-- The reset of the transport. -/
theorem MscStep.reset (hi : isReset i) (h : t.msc = { s.msc.clearTransient with state := .idle }) : MscStep i w s t where
  latch := .inr (.inl (by rw [h]; exact .rfl))
  nrr _ := .inr ⟨hi, by rw [h]⟩
  idle _ := .inl (by rw [h])
  order _ := by rw [h]; exact Msc.clearTransient_inOrder ..
  fits _ _ _ _ hf := by rw [h]; exact Msc.clearTransient_fits hf _

/-- The reset of the block. -/
theorem MscStep.blockReset (hi : isBlockReset i) (h : t.msc = { s.msc.resetTransient with state := .idle }) :
    MscStep i w s t where
  latch := .inr (.inr ⟨hi, by rw [h]; rfl, by rw [h]⟩)
  nrr _ := .inr ⟨hi.elim (fun h => .inr (.inr (.inl h))) (fun h => .inr (.inl h)), by rw [h]⟩
  idle _ := .inl (by rw [h])
  order _ := by rw [h]; exact ⟨le_rfl, fun _ => ⟨le_rfl, le_rfl⟩, fun _ => le_rfl, fun h => by cases h⟩
  fits _ _ _ _ hf := by
    rw [h]
    exact { Msc.clearTransient_fits hf .idle with cbLen := Nat.zero_le _, wbufCap := Nat.two_pow_pos 32 }

/-- A rule of a transport at work in `DATA_IN`, `DATA_OUT`, `STALL` or `CSW`. -/
theorem MscStep.of_working (hn : s.msc.state ≠ .nrr) (hi : s.msc.state ≠ .idle) (hl : SameLatch s.msc t.msc)
    (ho : s.msc.InOrder → t.msc.InOrder)
    (hf : s.cfg.wf = true → w → s.offersFit → s.msc.InOrder → s.msc.Fits → t.msc.Fits) : MscStep i w s t where
  latch := .inr (.inl hl)
  nrr h := absurd h hn
  idle h := absurd h hi
  order := ho
  fits := hf

/-- A rule that ends a data phase, or the wait after one. -/
theorem MscStep.of_endsData {m : Msc} (hn : s.msc.state ≠ .nrr) (hi : s.msc.state ≠ .idle) (he : m.EndsData t.msc)
    (hl : SameLatch s.msc m) (ht : s.msc.InOrder → m.transferred ≤ m.requested)
    (ha : s.msc.InOrder → m.inArmed = false) (hf : s.cfg.wf = true → s.msc.InOrder → s.msc.Fits → m.Fits) :
    MscStep i w s t :=
  .of_working hn hi (hl.trans he.latch) (fun h => he.order (ht h) (ha h)) fun hc _ _ h hfit =>
    he.fits (hf hc h hfit)

end

/-! ## The rules -/

section
variable {i : Instr} {w : Prop} {s t : State}

theorem mscStep_sendCsw (hs : s.msc.state = .csw) (h : sendCsw s = .next t) : MscStep i w s t :=
  .of_endsData (by simp [hs]) (by simp [hs]) (sendCsw_endsData h) .rfl (fun h => h.total)
    (fun _ => (sendCsw_next h).2.1) fun _ _ => id

theorem reoffered_msc (s : State) (d : Dir) : (reoffered s d).msc = s.msc := by
  cases d with
  | out => exact armOut_msc s
  | inp => rfl

theorem mscStep_haltCleared {d : Dir} (h : haltCleared s d = .next t) : MscStep i w s t := by
  rw [haltCleared_eq] at h
  split at h
  · next hdue =>
    rw [reoffered_msc] at hdue
    obtain ⟨hst, -⟩ := hdue
    have he := sendCsw_endsData h
    have ha := (sendCsw_next h).2.1
    rw [reoffered_msc] at he ha
    refine .of_endsData ?_ ?_ he .rfl (fun h => h.total) (fun _ => ha) fun _ _ => id
    · rintro hn
      simp [hn] at hst
    · rintro hn
      simp [hn] at hst
  · cases h
    exact .same (reoffered_msc s d)

theorem mscStep_clearHaltBody {e : EpNum} {d : Dir} (h : clearHaltBody s e d = .next t) : MscStep i w s t := by
  unfold clearHaltBody at h
  split at h
  · cases h; exact .same rfl
  · split at h
    · cases h; exact .same rfl
    · dsimp only at h
      split at h
      · have hstep : MscStep i w (clearHaltStore s e d) t := mscStep_haltCleared h
        exact ⟨hstep.latch, hstep.nrr, hstep.idle, hstep.order, hstep.fits⟩
      · cases h; exact .same rfl

theorem mscStep_evBlockReady {ptr len : Nat} (h : execEvBlockReady ptr len s = .next t) : MscStep i w s t := by
  unfold execEvBlockReady at h
  split at h
  · next hreq =>
    obtain ⟨hst, -, -, hia, -, -⟩ := hreq
    dsimp only at h
    split at h
    · cases h; exact .same rfl
    · have hmsc := pumpIn_msc h
      refine .of_working (by simp [hst]) (by simp [hst]) (by rw [hmsc]; exact .rfl) (fun ho => ?_) fun hwf _ _ ho hf => ?_
      · rw [hmsc]
        obtain ⟨hti, hir⟩ := ho.data (.inl hst)
        refine Msc.InOrder.packetSent hst hir ?_ (Nat.min_le_left ..)
        change s.msc.transferred + min len (s.msc.intentLen - s.msc.transferred) ≤ s.msc.intentLen
        omega
      · rw [hmsc]
        have hrem : min len (s.msc.intentLen - s.msc.transferred) < 2 ^ 32 := by have := hf.intentLen; omega
        have hopen : Msc.Fits { s.msc with
            txPtr := ptr, txRem := min len (s.msc.intentLen - s.msc.transferred) } := { hf with txRem := hrem }
        exact hopen.packetSent (State.packetLen_le _ hwf)
  · cases h

/-- What the end of a read operation records. -/
theorem readEnded_msc (s : State) (ok : Bool) : ∃ st left, (st = s.msc.status ∨ st = failed) ∧ left ≤ s.msc.txRem ∧
    (readEnded s ok).msc = { s.msc with op := .none, status := st, txRem := left } := by
  unfold readEnded
  split
  · exact ⟨failed, 0, .inr rfl, Nat.zero_le _, rfl⟩
  · exact ⟨s.msc.status, s.msc.txRem, .inl rfl, le_rfl, rfl⟩

theorem Msc.Fits.status_of {m : Msc} (h : m.Fits) {st : Byte} (hst : st = m.status ∨ st = failed ∨ st = phaseError) :
    st.toNat ≤ 2 := by
  obtain rfl | rfl | rfl := hst
  · exact h.status
  · decide
  · decide

theorem mscStep_evReadComplete {ok : Bool} (h : execEvReadComplete ok s = .next t) : MscStep i w s t := by
  rw [execEvReadComplete_eq] at h
  split at h
  · next hreq =>
    obtain ⟨hst, -⟩ := hreq
    obtain ⟨st, left, hstat, hleft, hmsc⟩ := readEnded_msc s ok
    have hfits (hf : s.msc.Fits) : (readEnded s ok).msc.Fits := by
      rw [hmsc]
      exact { hf with
        status := hf.status_of (hstat.imp_right .inl), txRem := Nat.lt_of_le_of_lt hleft hf.txRem }
    have hlatch : SameLatch s.msc (readEnded s ok).msc := by rw [hmsc]; exact .rfl
    split at h
    · cases h
      refine .of_working (by simp [hst]) (by simp [hst]) hlatch (fun ho => ?_) fun _ _ _ _ => hfits
      rw [hmsc]
      refine ⟨ho.total, ho.data, fun hd => ?_, ho.armed⟩
      have hp := ho.pump hd
      change s.msc.transferred + s.msc.inFlight + left ≤ s.msc.intentLen
      omega
    · next hia =>
      refine .of_endsData (by simp [hst]) (by simp [hst]) (finishIn_endsData h) hlatch ?_
        (fun _ => by simpa using hia) fun _ _ => hfits
      intro ho
      rw [hmsc]
      exact ho.total
  · cases h

/-- A protocol error of a write: nothing is in flight there. -/
theorem localProtocolMsc_endsData (s : State) :
    Msc.EndsData { s.msc with op := .none, status := phaseError } (raise s .localProtocolMsc).msc := by
  have h := stallWith_endsData (s := unwind s) phaseError (r := residueOf s.msc.requested s.msc.transferred) .out
    (by rw [unwind_msc]; exact Nat.sub_le ..)
  rwa [unwind_msc] at h

theorem Msc.InOrder.not_armed {m : Msc} (h : m.InOrder) (hs : m.state ≠ .dataIn) : m.inArmed = false := by
  by_contra ha
  exact hs (h.armed (by simpa using ha))

theorem mscStep_acceptPacket {buf n : Nat} (hs : s.msc.state = .dataOut) (h : acceptPacket s buf n = .next t) :
    MscStep i w s t := by
  have hnrr : s.msc.state ≠ .nrr := by simp [hs]
  have hidle : s.msc.state ≠ .idle := by simp [hs]
  have hin : s.msc.state ≠ .dataIn := by simp [hs]
  obtain rfl | ⟨h1, h2, rfl⟩ := acceptPacket_next h
  · exact .of_endsData hnrr hidle (localProtocolMsc_endsData s) .rfl (fun ho => ho.total) (fun ho => ho.not_armed hin)
      fun _ _ hf => { hf with status := hf.status_of (.inr (.inr rfl)) }
  · have hmsc : (armOut (dataAdded s buf n)).msc = s.msc.packetAdded n := by
      rw [armOut_msc, dataAdded, packetAdded_frame]
      rfl
    refine .of_working hnrr hidle (by rw [hmsc]; exact .rfl) (fun ho => ?_) fun _ _ _ ho hf => ?_ <;> rw [hmsc] <;>
      obtain ⟨hti, hir⟩ := ho.data (.inr hs)
    · have hn : s.msc.transferred + n ≤ s.msc.intentLen := by omega
      exact ⟨hn.trans hir, fun _ => ⟨hn, hir⟩, fun hd => absurd hd hin, ho.armed⟩
    · have hn : s.msc.transferred + n < 2 ^ 32 := by have := hf.intentLen; omega
      have hfill : s.msc.wbufFill + n < 2 ^ 32 := by
        have := hf.wbufCap
        have := hf.wbufFill
        omega
      exact { hf with transferred := hn, wbufFill := hfill }

theorem mscStep_onDataOutPacket {n buf : Nat} (hs : s.msc.state = .dataOut) (hn : w → n ≤ 1023)
    (h : onDataOutPacket s n buf = .next t) : MscStep i w s t := by
  unfold onDataOutPacket at h
  split at h
  · split at h <;> cases h
    exact .of_working (by simp [hs]) (by simp [hs]) .rfl (fun ho => ⟨ho.total, ho.data, ho.pump, ho.armed⟩)
      fun _ hw _ _ hf => { hf with missed := le_rfl, missedLen := hn hw }
  · exact mscStep_acceptPacket hs h

/-- A rule that first writes registers none of the predicates look at. -/
theorem MscStep.after {u : State} (h : MscStep i w u t) (hst : u.msc.state = s.msc.state) (hl : SameLatch s.msc u.msc)
    (hcfg : u.cfg = s.cfg) (hdrv : u.drv = s.drv) (ho : s.msc.InOrder → u.msc.InOrder)
    (hf : s.msc.Fits → u.msc.Fits) : MscStep i w s t where
  latch := by
    obtain h | h | ⟨hr, hc, hi⟩ := h.latch
    · exact .inl (hst ▸ h)
    · exact .inr (.inl (hl.trans h))
    · exact .inr (.inr ⟨hr, hc.trans hl.1, hi⟩)
  nrr hn := h.nrr (hst.trans hn)
  idle hn := h.idle (hst.trans hn)
  order hs := h.order (ho hs)
  fits hc hw hd hs hfit := h.fits (by rwa [hcfg]) hw (fun l => by simpa [State.drvOf, hdrv] using hd l) (ho hs) (hf hfit)

theorem mscStep_evWriteDataHandled (h : execEvWriteDataHandled s = .next t) : MscStep i w s t := by
  unfold execEvWriteDataHandled at h
  split at h
  · next hreq =>
    obtain ⟨hst, -, -⟩ := hreq
    have hopen (hf : s.msc.Fits) : ({ s.msc with awaitingDrain := false, wbufFill := 0 } : Msc).Fits :=
      { hf with wbufFill := Nat.two_pow_pos 32 }
    dsimp only at h
    split at h
    · refine .after (mscStep_acceptPacket (by exact hst) h) rfl .rfl rfl rfl
        (fun ho => ⟨ho.total, ho.data, ho.pump, ho.armed⟩) fun hf => { hopen hf with missed := Nat.zero_le _ }
    · cases h
      exact .of_working (by simp [hst]) (by simp [hst]) .rfl (fun ho => ⟨ho.total, ho.data, ho.pump, ho.armed⟩)
        fun _ _ _ _ => hopen
  · cases h

theorem writeEnded_msc (s : State) (ok : Bool) : (writeEnded s ok).msc =
    { s.msc with
      op := .none, awaitingDrain := false, missed := 0, status := if ok then s.msc.status else failed
      residue := residueOf s.msc.requested s.msc.transferred } := by
  cases ok <;> rfl

theorem mscStep_evWriteComplete {ok : Bool} (h : execEvWriteComplete ok s = .next t) : MscStep i w s t := by
  rw [execEvWriteComplete_eq] at h
  split at h
  · next hreq =>
    obtain ⟨hst, -, -⟩ := hreq
    have hin : s.msc.state ≠ .dataIn := by simp [hst]
    have hends : (writeEnded s ok).msc.EndsData t.msc := by
      split at h
      · cases h
        rw [stallMsc_msc, writeEnded_msc]
        exact .stalled _ (Nat.sub_le ..)
      · obtain ⟨u, hu, hnext⟩ := thenRun_next h
        cases hnext
        rw [armOut_msc]
        exact sendCsw_endsData hu
    refine .of_endsData (by simp [hst]) (by simp [hst]) hends (by rw [writeEnded_msc]; exact .rfl) (fun ho => ?_)
      (fun ho => ?_) fun _ _ hf => ?_ <;> rw [writeEnded_msc]
    · exact ho.total
    · exact ho.not_armed hin
    · have hstat : (if ok = true then s.msc.status else failed).toNat ≤ 2 := by
        split
        · exact hf.status
        · decide
      exact { hf with
        missed := Nat.zero_le _, status := hstat, residue := Nat.lt_of_le_of_lt (Nat.sub_le ..) hf.requested }
  · cases h

/-! ### The evaluator -/

/-- What a command rule writes of the transport's registers: the block sizes, the response, which under a good
configuration keeps its length, and its source. -/
def Answered (c : Config) (m m' : Msc) : Prop :=
  ∃ b l src, m' = { m with blockSize := b, resp := l, txSrc := src } ∧
    (c.wf = true → m.resp.length = 36 → l.length = 36)

theorem Answered.of_resp {c : Config} {m : Msc} (b : Vector (BitVec 32) 16) (src : TxSrc) :
    Answered c m { m with blockSize := b, txSrc := src } := ⟨b, m.resp, src, rfl, fun _ => id⟩

theorem Answered.rfl {c : Config} {m : Msc} : Answered c m m := .of_resp m.blockSize m.txSrc

theorem answered_respond {c : Config} {m : Msc} {u : State} (h : Answered c m u.msc) {b : List Byte}
    (hb : c.wf = true → b.length ≤ 36) : Answered c m (respond u b).msc := by
  obtain ⟨bs, l, src, hu, hl⟩ := h
  refine ⟨bs, b ++ l.drop b.length, .internal, ?_, fun hwf h36 => ?_⟩
  · simp [respond, hu]
  · have := hl hwf h36
    have := hb hwf
    rw [List.length_append, List.length_drop]
    omega

theorem answered_sizeAsked (c : Config) (s : State) : Answered c s.msc (sizeAsked s).msc := .of_resp _ _

theorem length_inquiry {c : Config} (h : c.wf = true) (l : Lun) : (c.inquiry l).length ≤ 36 := by
  rw [Config.wf_inquiry h]
  split <;> omega

theorem evalReadCapacity10_answered (s : State) : Answered s.cfg s.msc (evalReadCapacity10 s).s.msc := by
  unfold evalReadCapacity10
  dsimp only
  split
  · exact .rfl
  · split
    · exact answered_sizeAsked _ s
    · exact answered_respond (answered_sizeAsked _ s) fun _ => by simp [be32]

theorem evalRead10_answered (s : State) (a : BitVec 32) (n : BitVec 16) :
    Answered s.cfg s.msc (evalRead10 s a n).s.msc := by
  unfold evalRead10
  dsimp only
  split
  · exact .rfl
  · split
    · exact .rfl
    · split
      · exact answered_sizeAsked _ s
      · exact .of_resp _ _

theorem evalWrite10_answered (s : State) (a : BitVec 32) (n : BitVec 16) :
    Answered s.cfg s.msc (evalWrite10 s a n).s.msc := by
  unfold evalWrite10
  dsimp only
  split
  · exact .rfl
  · split
    · exact .rfl
    · split
      · exact answered_sizeAsked _ s
      · split
        · exact answered_sizeAsked _ s
        · exact answered_sizeAsked _ s

theorem evalCmd_answered (cmd : ScsiCmd) (s : State) : Answered s.cfg s.msc (evalCmd cmd s).s.msc := by
  cases cmd with
  | testUnitReady => simp only [evalCmd, evalTestUnitReady]; split <;> exact .rfl
  | requestSense =>
    have h : Answered s.cfg s.msc (respond s (senseBytes s.sense)).msc :=
      answered_respond .rfl fun _ => by simp [senseBytes]
    simp only [evalCmd, evalRequestSense]
    split <;> exact h
  | inquiry => exact answered_respond .rfl fun hwf => length_inquiry hwf _
  | modeSense6 => exact answered_respond (.of_resp _ _) fun _ => by simp
  | startStopUnit st ej => simp only [evalCmd, evalStartStopUnit]; split <;> exact .rfl
  | readCapacity10 => exact evalReadCapacity10_answered s
  | read10 a n => exact evalRead10_answered s a n
  | write10 a n => exact evalWrite10_answered s a n
  | unknown op => exact .rfl

section
variable {c : Config} {m m' : Msc} (h : Answered c m m')
include h

theorem Answered.latch : SameLatch m m' := by
  obtain ⟨b, l, src, rfl, -⟩ := h
  exact .rfl

theorem Answered.fits (hwf : c.wf = true) (hf : m.Fits) : m'.Fits := by
  obtain ⟨b, l, src, rfl, hl⟩ := h
  exact { hf with resp := hl hwf hf.resp }

theorem Answered.order (ho : m.InOrder) : m'.InOrder := by
  obtain ⟨b, l, src, rfl, -⟩ := h
  exact ⟨ho.total, ho.data, ho.pump, ho.armed⟩

theorem Answered.state : m'.state = m.state := by
  obtain ⟨b, l, src, rfl, -⟩ := h
  rfl

end

theorem mscStep_evalCmd (cmd : ScsiCmd) (hs : s.msc.state = .idle) : MscStep i w s (evalCmd cmd s).s where
  latch := .inr (.inl (evalCmd_answered cmd s).latch)
  nrr h := by simp [hs] at h
  idle _ := .inl ((evalCmd_answered cmd s).state.trans hs)
  order := (evalCmd_answered cmd s).order
  fits hwf _ _ _ := (evalCmd_answered cmd s).fits hwf

/-! ### `MSC_IN` -/

theorem mscStep_onDataInSent (hs : s.msc.state = .dataIn) (ha : s.msc.inArmed = true)
    (h : onDataInSent s = .next t) : MscStep i w s t := by
  have hnrr : s.msc.state ≠ .nrr := by simp [hs]
  have hidle : s.msc.state ≠ .idle := by simp [hs]
  have hpump (ho : s.msc.InOrder) : s.msc.transferred + s.msc.txLast + s.msc.txRem ≤ s.msc.intentLen := by
    have := ho.pump hs
    rwa [Msc.inFlight, if_pos ha] at this
  have hcounted (ho : s.msc.InOrder) : s.msc.transferred + s.msc.txLast ≤ s.msc.requested := by
    have := hpump ho
    have := (ho.data (.inl hs)).2
    omega
  have hfits (ho : s.msc.InOrder) (hf : s.msc.Fits) : (packetCounted s).msc.Fits :=
    { hf with transferred := Nat.lt_of_le_of_lt (hcounted ho) hf.requested }
  have hreport : (blockReported (packetCounted s)).msc = (packetCounted s).msc := by
    unfold blockReported
    split <;> rfl
  rw [onDataInSent_eq] at h
  split at h
  · have hmsc := pumpIn_msc h
    refine .of_working hnrr hidle (by rw [hmsc]; exact .rfl) (fun ho => ?_) fun hwf _ _ ho hf => ?_ <;> rw [hmsc]
    · exact Msc.InOrder.packetSent hs (ho.data (.inl hs)).2 (hpump ho) (Nat.min_le_left ..)
    · exact (hfits ho hf).packetSent (State.packetLen_le _ hwf)
  · split at h
    · have he := finishIn_endsData h
      rw [hreport] at he
      exact .of_endsData hnrr hidle he .rfl hcounted (fun _ => rfl) fun _ => hfits
    · cases h
      refine .of_working hnrr hidle (by rw [hreport]; exact .rfl) (fun ho => ?_) fun _ _ _ ho hf => ?_ <;> rw [hreport]
      · have := hpump ho
        refine ⟨hcounted ho, fun _ => ⟨?_, (ho.data (.inl hs)).2⟩, fun _ => ?_, fun h => by cases h⟩
        · change s.msc.transferred + s.msc.txLast ≤ s.msc.intentLen
          omega
        · exact this
      · exact hfits ho hf

theorem mscStep_onMscIn (h : onMscIn s = .next t) : MscStep i w s t := by
  unfold onMscIn at h
  split at h
  · next hs =>
    split at h <;> cases h
    · exact .of_working (by simp [hs]) (by simp [hs]) .rfl (fun _ => Msc.clearTransient_inOrder ..)
        fun _ _ _ _ hf => Msc.clearTransient_fits hf _
    · exact .same rfl
  · next hs =>
    split at h
    · next ha => exact mscStep_onDataInSent hs ha h
    · cases h; exact .same rfl
  all_goals cases h; exact .same rfl

/-! ### `MSC_OUT` in `IDLE`: a command begins -/

/-- What a case rule makes of registers that have nothing transferred and nothing in flight. -/
structure Began (s t : State) : Prop where
  order : s.msc.inArmed = false → s.msc.transferred = 0 → t.msc.InOrder
  fits : s.cfg.wf = true → s.offersFit → s.msc.Fits → t.msc.Fits

theorem Began.of_endsData {m : Msc} (he : m.EndsData t.msc) (ht : m.transferred = s.msc.transferred)
    (ha : m.inArmed = s.msc.inArmed) (hf : s.msc.Fits → m.Fits) : Began s t where
  order hi h0 := he.order (by omega) (ha.trans hi)
  fits _ _ h := he.fits (hf h)

theorem began_stallWith {st : Byte} (hst : st = failed ∨ st = phaseError) {r : Nat} (d : Dir)
    (hr : r ≤ s.msc.requested) : Began s (stallWith s st r d) :=
  .of_endsData (stallWith_endsData st d hr) rfl rfl fun hf => { hf with status := hf.status_of (.inr hst) }

theorem began_cswWith {st : Byte} (hst : st = s.msc.status ∨ st = phaseError) (h : cswWith s st 0 = .next t) :
    Began s t :=
  .of_endsData (m := { s.msc with status := st, residue := 0 }) (sendCsw_endsData h) rfl rfl fun hf =>
    { hf with status := hf.status_of (hst.imp_right .inr), residue := Nat.two_pow_pos 32 }

theorem began_startFailed {dlen : Nat} (hd : dlen ≤ s.msc.requested) {u : State}
    (hu : u.msc = { s.msc with intentLen := dlen }) (r : SenseReason) (c : BotCase) (d : Dir) :
    Began s (startFailed u r c d) := by
  have he : Msc.EndsData { s.msc with intentLen := dlen, intent := .none, caseNo := c.num, status := failed }
      (startFailed u r c d).msc := by
    unfold startFailed raise
    have h := stallWith_endsData (s := (raise u (.mediumError r)).setMsc
      { (raise u (.mediumError r)).msc with intent := .none, caseNo := c.num }) failed (r := u.msc.requested) d le_rfl
    simpa [raise, hu] using h
  refine .of_endsData he rfl rfl fun hf => { hf with
    intentLen := Nat.lt_of_le_of_lt hd hf.requested, status := hf.status_of (.inr (.inl rfl)), caseNo := ?_ }
  cases c <;> simp [BotCase.num]

theorem began_beginIn {cmd : ScsiCmd} {dlen : Nat} (hd : dlen ≤ s.msc.requested) (h : beginIn s cmd dlen = .next t) :
    Began s t := by
  have hlen (hf : s.msc.Fits) : dlen < 2 ^ 32 := Nat.lt_of_le_of_lt hd hf.requested
  unfold beginIn at h
  dsimp only at h
  split at h
  · cases h
    exact .of_endsData (m := { s.msc with intentLen := dlen, status := failed }) (.stalled s.msc.requested le_rfl) rfl rfl
      fun hf => { hf with intentLen := hlen hf, status := hf.status_of (.inr (.inl rfl)) }
  · split at h
    · split at h <;> cases h
      · refine ⟨fun ha h0 => ?_, fun _ _ hf => { hf with intentLen := hlen hf, txRem := Nat.two_pow_pos 32 }⟩
        have h0' : s.msc.transferred ≤ dlen := by omega
        refine ⟨h0'.trans hd, fun _ => ⟨h0', hd⟩, fun _ => ?_, fun _ => rfl⟩
        have hfl : s.msc.inFlight = 0 := by simp [Msc.inFlight, ha]
        change s.msc.transferred + s.msc.inFlight + 0 ≤ dlen
        omega
      · exact began_startFailed (u := ((s.setMsc _).emit _)) hd rfl ..
    · have hmsc := pumpIn_msc h
      refine ⟨fun _ h0 => ?_, fun hwf _ hf => ?_⟩ <;> rw [hmsc]
      · refine Msc.InOrder.packetSent rfl hd ?_ (Nat.min_le_left ..)
        change s.msc.transferred + dlen ≤ dlen
        omega
      · have hopen : Msc.Fits { s.msc with intentLen := dlen, state := .dataIn, txPtr := 0, txRem := dlen } :=
          { hf with intentLen := hlen hf, txRem := hlen hf }
        exact hopen.packetSent (State.packetLen_le _ hwf)

theorem began_beginOut {cmd : ScsiCmd} {dlen : Nat} (hd : dlen ≤ s.msc.requested)
    (h : beginOut s cmd dlen = .next t) : Began s t := by
  have hlen (hf : s.msc.Fits) : dlen < 2 ^ 32 := Nat.lt_of_le_of_lt hd hf.requested
  have hopen {m : Msc} (hs : m.state = .dataOut) (hi : m.intentLen = dlen) (hr : m.requested = s.msc.requested)
      (ht : m.transferred = s.msc.transferred) (ha : m.inArmed = s.msc.inArmed) (h1 : s.msc.inArmed = false)
      (h0 : s.msc.transferred = 0) : m.InOrder :=
    ⟨by omega, fun _ => by omega, fun h => by simp [hs] at h, fun h => by simp [ha, h1] at h⟩
  unfold beginOut at h
  dsimp only at h
  split at h
  · split at h <;> cases h
    · exact began_startFailed (u := ((s.setMsc _).emit _)) hd rfl ..
    · refine ⟨hopen rfl rfl rfl rfl rfl, fun _ ho hf => { hf with
        intentLen := hlen hf, wbufCap := ho _, wbufFill := Nat.two_pow_pos 32, missed := Nat.zero_le _ }⟩
  · cases h
    exact ⟨hopen rfl rfl rfl rfl rfl, fun _ _ hf => { hf with intentLen := hlen hf }⟩

/-- A case that moves data intends no more than the host asked for (43_msc_bot.md R176). -/
theorem selectCase_within {H D : Intent} {h dlen : Nat} {c : BotCase} (hc : selectCase H D h dlen = c)
    (hm : c = .c5 ∨ c = .c6 ∨ c = .c12) : dlen ≤ h := by
  by_contra hlt
  have hgt : ¬h > dlen := by omega
  have hne : ¬h = dlen := by omega
  subst hc
  cases H <;> cases D <;> simp [selectCase, hgt, hne] at hm

theorem began_runCase {c : BotCase} {cmd : ScsiCmd} {dlen : Nat}
    (hd : c = .c5 ∨ c = .c6 ∨ c = .c12 → dlen ≤ s.msc.requested) (h : runCase c cmd dlen s = .next t) :
    Began s t := by
  have hstall {st : Byte} (hst : st = failed ∨ st = phaseError) {d : Dir}
      (h : Host.Outcome.next (φ := Fault) (ρ := Refusal) (stallWith s st s.msc.requested d) = .next t) :
      Began s t := by
    cases h
    exact began_stallWith hst d le_rfl
  cases c with
  | c1 => exact began_cswWith (.inl rfl) h
  | c2 => exact began_cswWith (.inr rfl) h
  | c3 => exact began_cswWith (.inr rfl) h
  | c4 => exact hstall (.inl rfl) h
  | c5 => exact began_beginIn (hd (.inl rfl)) h
  | c6 => exact began_beginIn (hd (.inr (.inl rfl))) h
  | c7 => exact hstall (.inr rfl) h
  | c8 => exact hstall (.inr rfl) h
  | c9 => exact hstall (.inl rfl) h
  | c10 => exact hstall (.inr rfl) h
  | c11 => exact hstall (.inl rfl) h
  | c12 => exact began_beginOut (hd (.inr (.inr rfl))) h
  | c13 => exact hstall (.inr rfl) h

/-- The state in which the rule of the case runs (R175, R176). -/
def evaluated (r : EvalOut) : State :=
  let u := if r.ok then r.s else r.s.setMsc { r.s.msc with status := failed }
  u.setMsc { u.msc with
    intent := r.intent
    caseNo := (selectCase (hostIntent u.msc.requested u.msc.hostDir) r.intent u.msc.requested r.dlen).num }

/-- The command of the latched CBW, evaluated. -/
def evalLatched (s : State) : EvalOut := evalCmd (scsiOf s.cfg s.msc.cbw.cb) s

theorem evaluate_eq (s : State) : evaluate s =
    runCase (selectCase (hostIntent (evaluated (evalLatched s)).msc.requested (evaluated (evalLatched s)).msc.hostDir)
        (evalLatched s).intent (evaluated (evalLatched s)).msc.requested (evalLatched s).dlen)
      (scsiOf s.cfg s.msc.cbw.cb) (evalLatched s).dlen (evaluated (evalLatched s)) := rfl

theorem evaluated_msc (r : EvalOut) : ∃ st k, (st = r.s.msc.status ∨ st = failed) ∧ k ≤ 13 ∧
    (evaluated r).msc = { r.s.msc with status := st, intent := r.intent, caseNo := k } := by
  have hnum (c : BotCase) : c.num ≤ 13 := by cases c <;> simp [BotCase.num]
  unfold evaluated
  cases r.ok with
  | true => exact ⟨_, _, .inl rfl, hnum _, rfl⟩
  | false => exact ⟨_, _, .inr rfl, hnum _, rfl⟩

theorem evalCmd_frame (cmd : ScsiCmd) (s : State) : BulkFrame s (evalCmd cmd s).s := (bulkRun_evalCmd cmd s).frame

theorem evaluated_frame (r : EvalOut) : evaluated r = { r.s with msc := (evaluated r).msc } := by
  unfold evaluated
  cases r.ok <;> rfl

theorem began_evaluate (h : evaluate s = .next t) : Began s t := by
  rw [evaluate_eq] at h
  have hb := began_runCase (selectCase_within rfl) h
  have hans : Answered s.cfg s.msc (evalLatched s).s.msc := evalCmd_answered _ s
  obtain ⟨st, k, hst, hk, hmsc⟩ := evaluated_msc (evalLatched s)
  have hfr : BulkFrame s (evalLatched s).s := evalCmd_frame _ s
  have hcfg : (evaluated (evalLatched s)).cfg = s.cfg := by rw [evaluated_frame, hfr]
  have hdrv : (evaluated (evalLatched s)).drv = s.drv := by rw [evaluated_frame, hfr]
  refine ⟨fun ha h0 => hb.order ?_ ?_, fun hwf ho hf => hb.fits (by rwa [hcfg]) ?_ ?_⟩
  · obtain ⟨b, l, src, h', -⟩ := hans
    rw [hmsc, h']
    exact ha
  · obtain ⟨b, l, src, h', -⟩ := hans
    rw [hmsc, h']
    exact h0
  · intro l
    simpa [State.drvOf, hdrv] using ho l
  · have hf' := hans.fits hwf hf
    rw [hmsc]
    exact { hf' with status := hf'.status_of (hst.imp_right .inl), caseNo := hk }

/-- The transport's registers with a CBW latched (R174). -/
def Msc.latched (m : Msc) (x : Cbw) : Msc :=
  { m with
    cbw := x, currentTag := x.tag, requested := x.length.toNat, hostDir := cbwDir x, lun := cbwLun x
    cbLen := cbwCbLength x, transferred := 0, residue := 0, status := passed }

theorem latchCbw_eq (s : State) (x : Cbw) : latchCbw s x = armOut (s.setMsc (s.msc.latched x)) := rfl

theorem cbwValid_cbLen {c : Config} {n : Nat} {x : Cbw} (h : cbwValid c n x = true) : cbwCbLength x ≤ 16 := by
  simp only [cbwValid, Bool.and_eq_true, decide_eq_true_eq] at h
  obtain ⟨-, h16⟩ := h
  exact h16

theorem Msc.Fits.latched {m : Msc} (h : m.Fits) {x : Cbw} (hx : cbwCbLength x ≤ 16) : (m.latched x).Fits :=
  { h with
    requested := x.length.isLt, transferred := Nat.two_pow_pos 32, residue := Nat.two_pow_pos 32, cbLen := hx
    status := Nat.zero_le _ }

theorem mscStep_badCbw (hn : s.msc.state ≠ .nrr) (hi : s.msc.state = .idle → consumesTc i) :
    MscStep i w s (raise s .badCbw) := by
  have hmsc : (raise s .badCbw).msc = { s.msc.clearTransient with state := .nrr } := by
    change { (haltBoth (unwind s)).msc.clearTransient with state := .nrr } = _
    rw [haltBoth, setHaltIn_msc_msc, setHaltIn_msc_msc, unwind_msc]
    rfl
  refine ⟨.inr (.inl ?_), fun h => absurd h hn, fun h => .inr (hi h), fun _ => ?_, fun _ _ _ _ hf => ?_⟩ <;> rw [hmsc]
  · exact .rfl
  · exact Msc.clearTransient_inOrder ..
  · exact Msc.clearTransient_fits hf _

theorem mscStep_onCbwPacket {n buf : Nat} (hs : s.msc.state = .idle) (hi : consumesTc i)
    (h : onCbwPacket s n buf = .next t) : MscStep i w s t := by
  obtain ⟨-, hnext⟩ := readMem_next h
  dsimp only at hnext
  split at hnext
  · next hv =>
    have hb := began_evaluate hnext
    have hmsc : (latchCbw s (Cbw.parse (s.bytes buf (min n 31)))).msc =
        s.msc.latched (Cbw.parse (s.bytes buf (min n 31))) := by rw [latchCbw_eq, armOut_msc]; rfl
    have hframe := (bulkRun_latchCbw s (Cbw.parse (s.bytes buf (min n 31)))).frame
    refine ⟨.inl ⟨hs, hi⟩, fun hn => by simp [hs] at hn, fun _ => .inr hi, fun ho => hb.order ?_ ?_,
      fun hwf _ ho _ hf => hb.fits ?_ ?_ ?_⟩
    · rw [hmsc]
      exact ho.not_armed (by simp [hs])
    · rw [hmsc]
      rfl
    · rw [hframe]
      exact hwf
    · intro l
      rw [State.drvOf, hframe]
      exact ho l
    · rw [hmsc]
      exact hf.latched (cbwValid_cbLen hv)
  · cases hnext
    exact mscStep_badCbw (by simp [hs]) fun _ => hi

theorem mscStep_onMscOut {n buf : Nat} (hi : consumesTc i) (hn : w → n ≤ 1023) (h : onMscOut s n buf = .next t) :
    MscStep i w s t := by
  have hbad (hne : s.msc.state ≠ .nrr)
      (h : Host.Outcome.next (φ := Fault) (ρ := Refusal) (raise s .badCbw) = .next t) : MscStep i w s t := by
    cases h
    exact mscStep_badCbw hne fun _ => hi
  unfold onMscOut at h
  split at h
  · next hs => exact mscStep_onCbwPacket hs hi h
  · next hs => exact mscStep_onDataOutPacket hs hn h
  · next hs => exact hbad (by simp [hs]) h
  · next hs => exact hbad (by simp [hs]) h
  · next hs => exact hbad (by simp [hs]) h
  · cases h; exact .same rfl

theorem mscStep_handle {x : Tc} {n buf : Nat} (hi : consumesTc i) (hn : w → n ≤ 1023)
    (h : handle s x n buf = .next t) : MscStep i w s t := by
  obtain ⟨-, hrun⟩ | ⟨he, -⟩ := handle_run h
  · exact hrun.mscStep
  · rw [handle, if_neg he] at h
    split at h
    · exact mscStep_onMscOut hi hn h
    · split at h
      · exact mscStep_onMscIn h
      · cases h; exact .same rfl

theorem mscStep_takeHead {x : Tc} {rest : List Tc} (hq : s.tcq = x :: rest) (hi : consumesTc i)
    (h : takeHead s = .next t) : MscStep i s.countsFit s t := by
  rw [takeHead_eq hq] at h
  have hstep := mscStep_handle (w := s.countsFit) hi (fun hw => hw x.e x.d _) h
  exact ⟨hstep.latch, hstep.nrr, hstep.idle, hstep.order, hstep.fits⟩

/-! ## Every rule -/

theorem setConfigBody_msc (s : State) (v : Nat) : (setConfigBody s v).msc = s.msc ∨
    (setConfigBody s v).msc = { s.msc.clearTransient with state := .idle } := by
  unfold setConfigBody
  split
  · right
    dsimp only
    have h (u : State) : (if v ≠ 0 then armOut u else u).msc = u.msc := by
      split
      · exact armOut_msc u
      · rfl
    rw [h]
    change { (unwind (restartEndpoints s)).msc.clearTransient with state := .idle } = _
    rw [unwind_msc]
    rfl
  · exact .inl rfl

theorem mscResetBody_msc (s : State) : (mscResetBody s).msc = { s.msc.clearTransient with state := .idle } := by
  have h (u : State) : (if (u.epDir u.cfg.mscOut .out).halted then u else armOut u).msc = u.msc := by
    split
    · rfl
    · exact armOut_msc u
  unfold mscResetBody
  dsimp only
  rw [h, toMscState, State.setMsc_msc, flush_frame, flush_frame, unwind_eq]
  rfl

/-- What a rule does to the transport's registers. -/
theorem Rule.mscStep (h : Rule i s t) : MscStep i s.countsFit s t := by
  cases h with
  | answer r => exact .same rfl
  | output o => exact .same rfl
  | handshake w => exact .same rfl
  | driverAnswer l x => exact .same rfl
  | mask b => exact .same rfl
  | resetSignal b => exact .same rfl
  | arm e d a n => exact .same (by rw [armIn_frame])
  | setHalt e d => exact .cswArmed (by rw [setHaltIn_frame])
  | clearHalt e d he h => exact mscStep_clearHaltBody h
  | epInit => exact .same (by rw [epInit_frame])
  | accept cb => exact (engineRun_acceptBody s cb).mscStep
  | controlReturn p a r hs hr h => exact (engineRun_controlReturnBody h).mscStep
  | receive b x k => exact (engineRun_receiveBody s b x k).mscStep
  | reject => exact (engineRun_rejectBody s 8).mscStep
  | holdAddress a => exact .same (by rw [setAddressBody_frame])
  | setConfig v hi =>
    obtain h | h := setConfigBody_msc s v
    · exact .same h
    · exact .reset (.inr (.inr (.inr (.inr hi)))) h
  | stackInit hi => exact .blockReset (.inl hi) (by rw [stackInit_eq])
  | busReset hi => exact .blockReset (.inr hi) (by rw [busReset_eq])
  | blockReady p l h => exact mscStep_evBlockReady h
  | readComplete ok h => exact mscStep_evReadComplete h
  | writeDataHandled h => exact mscStep_evWriteDataHandled h
  | writeComplete ok h => exact mscStep_evWriteComplete h
  | mscReset hc hi =>
    exact .reset (hi.elim .inl fun h => .inr (.inr (.inr (.inl h)))) (mscResetBody_msc s)
  | haltCleared d hc hd hn h => exact mscStep_haltCleared h
  | sendCsw hc hs h => exact mscStep_sendCsw hs h
  | command cmd hc hs => exact mscStep_evalCmd cmd hs
  | takeOut e tog b hh h => exact .same (by rw [takeOut_next h]; rfl)
  | sendIn e w => exact .same rfl
  | takeSetup b hh h => exact .same (by rw [takeSetup_next h, setupTaken_frame]; rfl)
  | takeHead x rest hq hi h => exact mscStep_takeHead hq ⟨_, _, hi⟩ h

end

end Sys2Proof.Machine
end

section
/-! # What steps and instructions keep of the transport's registers, and who writes the latches (O8, O12, O13, O14) -/

namespace Sys2Proof.Machine

/-- Settles O8: every rule keeps the order of the counters (`Rule.mscStep`). -/
theorem stepKeepsCounters : Obligations.StepKeepsCounters := by
  unfold Obligations.StepKeepsCounters
  intro s t hc hp h
  refine (State.inOrder_iff t).1 (step_keeps (I := fun u => u.msc.InOrder) (fun _ _ => id) (fun _ _ => id)
    (fun i u v _ _ hr hu => ⟨hr.cfg, hr.mscStep.order hu⟩) h ((State.inOrder_iff s).2 ⟨hc, hp⟩))

/-! ## The latched CBW -/

theorem exec_of_consumeTc {s t : State} {x : Tc} (h : consumeTc x s = .next t) :
    t = s ∨ ∃ y rest, s.tcq = y :: rest ∧ takeHead s = .next t := by
  unfold consumeTc at h
  split at h
  · cases h; exact .inl rfl
  · split at h
    · cases h; exact .inl rfl
    · next y rest hq =>
      split at h
      · exact .inr ⟨y, rest, hq, h⟩
      · cases h

theorem exec_of_consumeIfNext {q : List Tc} {u t : State} (h : consumeIfNext q u = .next t) :
    t = u ∨ ∃ y rest, u.tcq = y :: rest ∧ takeHead u = .next t := by
  unfold consumeIfNext at h
  split at h
  · cases hq : u.tcq with
    | nil =>
      rw [takeHead, hq] at h
      cases h
      exact .inl rfl
    | cons y rest => exact .inr ⟨y, rest, rfl, h⟩
  · cases h; exact .inl rfl

theorem notTaken_msc (s : State) (e : EpNum) (d : Dir) (h : Handshake) : (notTaken s e d h).msc = s.msc := by
  cases h <;> rfl

/-- An instruction that consumes a completion changes the transport's registers by the consumption only. -/
theorem exec_of_consumesTc {i : Instr} (hi : consumesTc i) {s t : State} (h : exec i s = .next t) :
    ∃ u, u.msc = s.msc ∧ (t.msc = u.msc ∨ ∃ y rest, u.tcq = y :: rest ∧ takeHead u = .next t) := by
  have hconsume {x : Tc} (h : consumeTc x s = .next t) :
      ∃ u, u.msc = s.msc ∧ (t.msc = u.msc ∨ ∃ y rest, u.tcq = y :: rest ∧ takeHead u = .next t) :=
    ⟨s, rfl, (exec_of_consumeTc h).imp_left fun h => congrArg State.msc h⟩
  obtain ⟨c, x, rfl | ⟨rfl, -⟩ | ⟨rfl, -⟩ | ⟨rfl, -⟩ | ⟨rfl, -⟩ | ⟨rfl, -⟩ | ⟨rfl, -⟩ | ⟨rfl, -⟩ | ⟨⟨p, rfl⟩, -⟩ |
    ⟨⟨b, rfl⟩, -⟩⟩ := hi
  case inr.inr.inr.inr.inr.inr.inr.inr.inl =>
    have hx : setupOnWire p s = .next t := h
    unfold setupOnWire at hx
    dsimp only at hx
    split at hx
    · obtain ⟨u, hu, hnext⟩ := thenRun_next hx
      refine ⟨u, ?_, (exec_of_consumeIfNext hnext).imp_left fun h => congrArg State.msc h⟩
      rw [takeSetup_next hu, setupTaken_frame]
      rfl
    · cases hx; exact ⟨s, rfl, .inl (notTaken_msc ..)⟩
  case inr.inr.inr.inr.inr.inr.inr.inr.inr =>
    have hx : execCbw b s = .next t := h
    unfold execCbw at hx
    dsimp only at hx
    split at hx
    · obtain ⟨u, hu, hnext⟩ := thenRun_next hx
      refine ⟨u, ?_, (exec_of_consumeIfNext hnext).imp_left fun h => congrArg State.msc h⟩
      rw [takeOut_next hu]
      rfl
    · cases hx; exact ⟨s, rfl, .inl (notTaken_msc ..)⟩
  all_goals exact hconsume h

/-- Settles O12: an instruction that consumes nothing never changes the latch but in a reset of the block; one that
consumes changes it in `IDLE` only. -/
theorem latchedCbwIsImmutable : Obligations.LatchedCbwIsImmutable := by
  unfold Obligations.LatchedCbwIsImmutable
  intro s t i hidle h
  have hgoal (ht : SameLatch s.msc t.msc ∨ (isBlockReset i ∧ t.msc.cbw = s.msc.cbw ∧ t.msc.state = .idle)) :
      t.msc.cbw = s.msc.cbw ∧
        ((t.msc.lun = s.msc.lun ∧ t.msc.hostDir = s.msc.hostDir ∧ t.msc.cbLen = s.msc.cbLen) ∨
          ((i = .stackInit ∨ i = .busReset) ∧ t.msc.state = .idle)) := by
    obtain ⟨hcbw, hrest⟩ | ⟨hi, hcbw, hst⟩ := ht
    · exact ⟨hcbw, .inl hrest⟩
    · exact ⟨hcbw, .inr ⟨hi, hst⟩⟩
  refine hgoal ?_
  by_cases hi : consumesTc i
  · obtain ⟨u, hu, ht | ⟨y, rest, hq, hnext⟩⟩ := exec_of_consumesTc hi h
    · exact .inl (by rw [ht, hu]; exact .rfl)
    · rw [← hu] at hidle ⊢
      exact (mscStep_takeHead hq hi hnext).latch.resolve_left fun hl => hidle hl.1
  · refine (exec_ran h).keeps (I := fun u => SameLatch s.msc u.msc ∨
      (isBlockReset i ∧ u.msc.cbw = s.msc.cbw ∧ u.msc.state = .idle)) (fun u v hr hu => ?_) (.inl .rfl)
    obtain hl | hl | ⟨hb, hcbw, hst⟩ := hr.mscStep.latch
    · exact absurd hl.2 hi
    · obtain hu | ⟨hb, hcbw, hst⟩ := hu
      · exact .inl (hu.trans hl)
      · exact .inr ⟨hb, hl.1.trans hcbw, (hr.mscStep.idle hst).resolve_right hi⟩
    · obtain hu | ⟨-, hcbw', -⟩ := hu
      · exact .inr ⟨hb, hcbw.trans hu.1, hst⟩
      · exact .inr ⟨hb, hcbw.trans hcbw', hst⟩

/-! ## The way out of `NRR` -/

theorem not_consumesTc_of_isReset {i : Instr} (h : isReset i) : ¬consumesTc i := by
  rintro ⟨c, x, hx⟩
  obtain rfl | rfl | rfl | rfl | ⟨v, rfl⟩ | ⟨v, x, rfl⟩ := h <;> simp [Consumes] at hx

/-- Settles O13: a rule leaves `NRR` in a reset only, to `IDLE`, where no rule of a reset goes on. -/
theorem nrrIsLeftByResetOnly : Obligations.NrrIsLeftByResetOnly := by
  unfold Obligations.NrrIsLeftByResetOnly
  intro s t i hs h
  refine (exec_ran h).keeps (I := fun u => u.msc.state = .nrr ∨ (isReset i ∧ u.msc.state = .idle)) (fun u v hr hu => ?_)
    (.inl hs)
  obtain hn | ⟨hi, hidle⟩ := hu
  · exact hr.mscStep.nrr hn
  · exact .inr ⟨hi, (hr.mscStep.idle hidle).resolve_right (not_consumesTc_of_isReset hi)⟩

/-! ## Who writes `setup`, `tc_irq_en` and `dev.address` -/

section
variable {s t : State}

theorem BulkRun.keepsLatches (h : BulkRun s t) : t.setup = s.setup ∧ t.dev.address = s.dev.address := by
  rw [h.frame]
  exact ⟨rfl, rfl⟩

theorem onCteIn_setup (h : onCteIn s = .next t) : t.setup = s.setup := by
  unfold onCteIn at h
  split at h
  · split at h
    · rw [sendChunk_next h, chunkSent_frame]
    · split at h <;> cases h
      · rw [armEp0Zlp_frame]; rfl
      · rfl
  · split at h <;> cases h
    · rw [completeSession_eq]
    · rfl
  all_goals cases h; rfl

theorem dataTaken_frame (s : State) (n buf : Nat) : dataTaken s n buf =
    { s with eps := (dataTaken s n buf).eps, mem := Memory.writeBytes s.mem s.cs.cursor (s.bytes buf n)
             cs := { s.cs with cursor := s.cs.cursor + n, remaining := s.cs.remaining - n }
             cteState := (dataTaken s n buf).cteState } := by
  unfold dataTaken
  split
  · rw [armEp0Zlp_frame, dataStored_frame]; rfl
  · rw [dataStored_frame]

theorem onCteOut_setup {n buf : Nat} (h : onCteOut s n buf = .next t) : t.setup = s.setup := by
  have hlocal : (raise s .localProtocolEp0).setup = s.setup := by rw [localProtocol_eq, haltEp0_frame]
  unfold onCteOut at h
  split at h
  · obtain ⟨-, rfl⟩ | ⟨-, rfl⟩ := onDataOut_next h
    · exact hlocal
    · rw [dataTaken_frame]
  · split at h <;> cases h
    · rw [armEp0Out_frame, raise, abortSession_eq]; rfl
    · exact hlocal
  · split at h
    · split at h <;> cases h
      · rw [armEp0Out_frame, completeSession_eq]
      · rw [armEp0Out_frame]
    · cases h; exact hlocal
  · cases h; rw [armEp0Out_frame]
  · cases h; rfl

theorem sessionFailed_address (s : State) : (sessionFailed s).dev.address = s.dev.address := by
  unfold sessionFailed
  split
  · rw [abortSession_eq]
  · rfl

theorem onCteSetup_address {n buf : Nat} (h : onCteSetup s n buf = .next t) : t.dev.address = s.dev.address := by
  obtain ⟨-, rfl⟩ | ⟨-, rfl⟩ := onCteSetup_next h
  · rw [rejectBody_eq, rejected_frame]
    exact sessionFailed_address s
  · exact sessionFailed_address s

theorem handle_setup {x : Tc} {n buf : Nat} (hx : x.e = 0 → x.pid ≠ .setup) (h : handle s x n buf = .next t) :
    t.setup = s.setup := by
  obtain ⟨he, -⟩ | ⟨-, hrun⟩ := handle_run h
  · rw [handle, if_pos he] at h
    split at h
    · next hp => exact absurd hp (hx he)
    · exact onCteIn_setup h
    · exact onCteOut_setup h
  · exact hrun.keepsLatches.1

theorem handle_address {x : Tc} {n buf : Nat} (hx : x.e = 0 → x.pid = .setup) (h : handle s x n buf = .next t) :
    t.dev.address = s.dev.address := by
  obtain ⟨he, -⟩ | ⟨-, hrun⟩ := handle_run h
  · rw [handle, if_pos he, hx he] at h
    exact onCteSetup_address h
  · exact hrun.keepsLatches.2

theorem handle_tcIrqEn {x : Tc} {n buf : Nat} (h : handle s x n buf = .next t) : t.tcIrqEn = s.tcIrqEn := by
  obtain ⟨-, hrun⟩ | ⟨-, hrun⟩ := handle_run h
  · rw [hrun.frame.2]
  · rw [hrun.frame]

/-- The instructions that may write `setup`. -/
def writesSetup (i : Instr) : Prop := (∃ x, i = .evTc x) ∨ i = .cteSetup ∨ ∃ p, i = .setup .wire p

/-- The instructions that may write `dev.address`. -/
def writesAddress (i : Instr) : Prop :=
  (∃ x, i = .evTc x) ∨ i = .cteIn ∨ i = .cteOut ∨ i = .busReset ∨ i = .stackInit

/-- A record of endpoint 0 consumed by an instruction that does not write `setup` is no SETUP, and by one that does not
write `dev.address` is one. -/
theorem Consumes.record {c : Config} {i : Instr} {x : Tc} (hwf : c.wf = true) (hi : WellFormed c i = true)
    (h : Consumes c i x) (he : x.e = 0) : (¬writesSetup i → x.pid ≠ .setup) ∧ (¬writesAddress i → x.pid = .setup) := by
  have hout := (Config.wf_mscOut hwf).1
  have hin := (Config.wf_mscIn hwf).1
  obtain rfl | ⟨rfl, rfl⟩ | ⟨rfl, rfl⟩ | ⟨rfl, rfl⟩ | ⟨rfl, rfl⟩ | ⟨rfl, rfl⟩ | ⟨rfl, hp⟩ | ⟨rfl, hp⟩ | ⟨⟨p, rfl⟩, rfl⟩ |
    ⟨⟨b, rfl⟩, rfl⟩ := h
  · exact ⟨fun h => absurd (.inl ⟨x, rfl⟩) h, fun h => absurd (.inl ⟨x, rfl⟩) h⟩
  · exact ⟨fun h => absurd (.inr (.inl rfl)) h, fun _ => rfl⟩
  · exact ⟨fun _ => by simp, fun h => absurd (.inr (.inr (.inl rfl))) h⟩
  · exact ⟨fun _ => by simp, fun h => absurd (.inr (.inl rfl)) h⟩
  · exact absurd he hout
  · exact absurd he hin
  · simp [WellFormed, he] at hi
  · simp [WellFormed, he] at hi
  · exact ⟨fun h => absurd (.inr (.inr ⟨p, rfl⟩)) h, fun _ => rfl⟩
  · exact absurd he hout

/-- What one instruction has done to the latches so far. -/
def LatchesKept (i : Instr) (s t : State) : Prop :=
  (t.setup = s.setup ∨ writesSetup i) ∧ (t.tcIrqEn = s.tcIrqEn ∨ i = .critEnter ∨ i = .critExit ∨ i = .stackInit) ∧
    (t.dev.address = s.dev.address ∨ writesAddress i)

theorem LatchesKept.same {i : Instr} (h1 : t.setup = s.setup) (h2 : t.tcIrqEn = s.tcIrqEn)
    (h3 : t.dev.address = s.dev.address) : LatchesKept i s t := ⟨.inl h1, .inl h2, .inl h3⟩

theorem LatchesKept.trans {i : Instr} {u : State} (h : LatchesKept i s u) (h' : LatchesKept i u t) :
    LatchesKept i s t := by
  obtain ⟨h1, h2, h3⟩ := h
  obtain ⟨g1, g2, g3⟩ := h'
  refine ⟨?_, ?_, ?_⟩
  · exact g1.elim (fun g => h1.imp_left g.trans) .inr
  · exact g2.elim (fun g => h2.imp_left g.trans) .inr
  · exact g3.elim (fun g => h3.imp_left g.trans) .inr

theorem BulkRun.latchesKept {i : Instr} (h : BulkRun s t) : LatchesKept i s t :=
  .same h.keepsLatches.1 (by rw [h.frame]) h.keepsLatches.2

theorem latchesKept_takeHead {i : Instr} {x : Tc} {rest : List Tc} (hwf : s.cfg.wf = true)
    (hi : WellFormed s.cfg i = true) (hc : Consumes s.cfg i x) (hq : s.tcq = x :: rest) (h : takeHead s = .next t) :
    LatchesKept i s t := by
  rw [takeHead_eq hq] at h
  refine ⟨?_, .inl ?_, ?_⟩
  · by_cases hw : writesSetup i
    · exact .inr hw
    · refine .inl ((handle_setup (fun he => (hc.record hwf hi he).1 hw) h).trans ?_)
      rw [consumed_frame]
  · rw [handle_tcIrqEn h, consumed_frame]
  · by_cases hw : writesAddress i
    · exact .inr hw
    · refine .inl ((handle_address (fun he => (hc.record hwf hi he).2 hw) h).trans ?_)
      rw [consumed_frame]

theorem Rule.latchesKept {i : Instr} (hwf : s.cfg.wf = true) (hi : WellFormed s.cfg i = true) (h : Rule i s t) :
    LatchesKept i s t := by
  cases h with
  | answer r => exact .same rfl rfl rfl
  | output o => exact .same rfl rfl rfl
  | handshake w => exact .same rfl rfl rfl
  | driverAnswer l x => exact .same rfl rfl rfl
  | mask b hi => exact ⟨.inl rfl, .inr (hi.imp_right .inl), .inl rfl⟩
  | resetSignal b => exact .same rfl rfl rfl
  | arm e d a n => rw [armIn_frame]; exact .same rfl rfl rfl
  | setHalt e d => rw [setHaltIn_frame]; exact .same rfl rfl rfl
  | clearHalt e d he h => exact (bulkRun_clearHaltBody h).latchesKept
  | epInit => rw [epInit_frame]; exact .same rfl rfl rfl
  | accept cb => rw [acceptBody_eq, armEp0Out_frame, armEp0Zlp_frame]; exact .same rfl rfl rfl
  | controlReturn p a r hs hr h =>
    rw [controlReturnBody_next h, armEp0Out_frame, chunkSent_frame]
    exact .same rfl rfl rfl
  | receive b x k =>
    rw [receiveBody_eq, armEp0Out_frame]
    split
    · rw [armEp0Zlp_frame]; exact .same rfl rfl rfl
    · exact .same rfl rfl rfl
  | reject => rw [rejectBody_eq, rejected_frame]; exact .same rfl rfl rfl
  | holdAddress a => rw [setAddressBody_frame]; exact .same rfl rfl rfl
  | setConfig v =>
    rw [setConfigBody_frame]
    exact .same rfl rfl rfl
  | stackInit hi => exact ⟨.inl (by rw [stackInit_eq]), .inr (.inr (.inr hi)), .inr (.inr (.inr (.inr (.inr hi))))⟩
  | busReset hi =>
    exact ⟨.inl (by rw [busReset_eq]), .inl (by rw [busReset_eq]), .inr (.inr (.inr (.inr (.inl hi))))⟩
  | blockReady p l h => exact (bulkRun_evBlockReady h).latchesKept
  | readComplete ok h => exact (bulkRun_evReadComplete h).latchesKept
  | writeDataHandled h => exact (bulkRun_evWriteDataHandled h).latchesKept
  | writeComplete ok h => exact (bulkRun_evWriteComplete h).latchesKept
  | mscReset => exact (bulkRun_mscResetBody s).latchesKept
  | haltCleared d hc hd hn h => exact (bulkRun_haltCleared h).latchesKept
  | sendCsw hc hs h => exact (bulkRun_sendCsw h).latchesKept
  | command cmd => exact (bulkRun_evalCmd cmd s).latchesKept
  | takeOut e tog b hh h => rw [takeOut_next h]; exact .same rfl rfl rfl
  | sendIn e w => exact .same rfl rfl rfl
  | takeSetup b hh h => rw [takeSetup_next h, setupTaken_frame]; exact .same rfl rfl rfl
  | takeHead x rest hq hc h => exact latchesKept_takeHead hwf hi hc hq h

end

/-- Settles O14: by what each rule does to the three registers, along the rules of one instruction. -/
theorem writersOfLatches : Obligations.WritersOfLatches := by
  unfold Obligations.WritersOfLatches
  intro s t i hwf hi h
  refine ((exec_ran h).keeps (I := fun u => LatchesKept i s u ∧ u.cfg = s.cfg) (fun u v hr ⟨hu, hc⟩ => ?_)
    ⟨.same rfl rfl rfl, rfl⟩).1
  exact ⟨hu.trans (hr.latchesKept (hc ▸ hwf) (hc ▸ hi)), hr.cfg.trans hc⟩

end Sys2Proof.Machine
end

section
/-! # The descriptors' counts, and the gate of an unconfigured device (O9, O10) -/

namespace Sys2Proof.Machine

/-! ## Endpoint directions after an operation -/

theorem endDir_or (e e' : EpNum) (d d' : Dir) : (e' = e ∧ d' = d) ∨ (e' ≠ e ∨ d' ≠ d) := by
  by_cases he : e' = e
  · by_cases hd : d' = d
    · exact .inl ⟨he, hd⟩
    · exact .inr (.inr hd)
  · exact .inr (.inl he)

/-- What holds of every direction and of the one rewritten, holds of every direction after the rewriting. -/
theorem forall_onDir {p : EpNum → Dir → EpDir → Prop} {s : State} {e : EpNum} {d : Dir} {f : EpDir → EpDir}
    (hs : ∀ e d, p e d (s.epDir e d)) (hf : p e d (s.epDir e d) → p e d (f (s.epDir e d))) :
    ∀ e' d', p e' d' ((s.onDir e d f).epDir e' d') := by
  intro e' d'
  obtain ⟨rfl, rfl⟩ | hne := endDir_or e e' d d'
  · rw [State.onDir_epDir_same]
    exact hf (hs _ _)
  · rw [State.onDir_epDir_ne _ _ _ _ hne]
    exact hs e' d'

/-- One of a direction's two descriptors is the one just written, or the other. -/
theorem EpDir.forall_setBd {p : Desc → Prop} {x : EpDir} {k : Bool} {b : Desc} (hb : p b) (hx : ∀ j, p (x.bd j)) :
    ∀ j, p ((x.setBd k b).bd j) := by
  have h0 := hx false
  have h1 := hx true
  intro j
  cases j <;> cases k <;> assumption

/-- A direction whose descriptor at `hw_idx` the channel returns after a transaction of `m` bytes (40_arbiter.md
R102 to R104). -/
def EpDir.returned (x : EpDir) (k pp : Bool) (m : Nat) : EpDir :=
  let y := (x.setBd k { x.bd k with count := m, stall := false, owner := .fw }).setUnread k true
  if pp then { y with hwIdx := !k } else y

theorem returnDesc_eq (s : State) (e : EpNum) (p : Pid) (m : Nat) : returnDesc s e p m =
    (s.onDir e p.dir fun x => x.returned (s.hw e p.dir) (s.pp e p.dir) m).setTcq (s.tcq ++ [⟨e, p⟩]) := rfl

section
variable (x : EpDir) (k pp : Bool) (m : Nat)

@[simp] theorem EpDir.returned_bd (j : Bool) : (x.returned k pp m).bd j =
    (x.setBd k { x.bd k with count := m, stall := false, owner := .fw }).bd j := by
  cases pp <;> cases j <;> cases k <;> rfl
@[simp] theorem EpDir.returned_unread_same : (x.returned k pp m).unread k = true := by cases pp <;> cases k <;> rfl
@[simp] theorem EpDir.returned_unread_other : (x.returned k pp m).unread (!k) = x.unread (!k) := by
  cases pp <;> cases k <;> rfl
@[simp] theorem EpDir.returned_rearmed (j : Bool) : (x.returned k pp m).rearmed j = x.rearmed j := by
  cases pp <;> cases j <;> cases k <;> rfl
@[simp] theorem EpDir.returned_halted : (x.returned k pp m).halted = x.halted := by cases pp <;> cases k <;> rfl
@[simp] theorem EpDir.returned_nextToggle : (x.returned k pp m).nextToggle = x.nextToggle := by
  cases pp <;> cases k <;> rfl
@[simp] theorem EpDir.returned_activeIdx : (x.returned k pp m).activeIdx = x.activeIdx := by
  cases pp <;> cases k <;> rfl
@[simp] theorem EpDir.returned_rdIdx : (x.returned k pp m).rdIdx = x.rdIdx := by cases pp <;> cases k <;> rfl
@[simp] theorem EpDir.returned_hwIdx : (x.returned k pp m).hwIdx = if pp then !k else x.hwIdx := by
  cases pp <;> cases k <;> rfl

end

/-! ## The counts -/

/-- A direction whose descriptors' counts fit their ten bits. -/
def EpDir.countsFit (x : EpDir) : Prop := ∀ k, (x.bd k).count ≤ 1023

theorem EpDir.countsFit.setBd {x : EpDir} (h : x.countsFit) (k : Bool) {b : Desc} (hb : b.count ≤ 1023) :
    (x.setBd k b).countsFit := EpDir.forall_setBd (p := fun b => b.count ≤ 1023) hb h

theorem EpDir.countsFit.of_bd {x y : EpDir} (h : x.countsFit) (hy : ∀ k, (y.bd k).count = (x.bd k).count) :
    y.countsFit := fun k => by rw [hy]; exact h k

section
variable {s t : State}

theorem countsFit_of_eps (h : s.countsFit) (he : t.eps = s.eps) : t.countsFit := by
  intro e d k
  have : t.epDir e d = s.epDir e d := by rw [State.epDir_eq, State.epDir_eq, he]
  rw [this]
  exact h e d k

theorem State.countsFit_onDir (h : s.countsFit) {e : EpNum} {d : Dir} {f : EpDir → EpDir}
    (hf : (s.epDir e d).countsFit → (f (s.epDir e d)).countsFit) : (s.onDir e d f).countsFit :=
  forall_onDir (p := fun _ _ x => x.countsFit) h hf

theorem State.countsFit_onDir_bd (h : s.countsFit) {e : EpNum} {d : Dir} {f : EpDir → EpDir}
    (hf : ∀ x k, ((f x).bd k).count = (x.bd k).count) : (s.onDir e d f).countsFit :=
  State.countsFit_onDir h fun hx => hx.of_bd (hf _)

theorem countsFit_armStore (h : s.countsFit) (e : EpNum) (d : Dir) (a : Nat) {n : Nat} (hn : n ≤ 1023) :
    (armStore s e d a n).countsFit := by
  refine State.countsFit_onDir h fun hx => ?_
  dsimp only
  split <;> exact (hx.setBd (s.active e d) (b := ⟨a, n, .hw, s.armToggle e d, false⟩) hn).of_bd fun k => by
    cases k <;> cases s.active e d <;> rfl

/-- When `ARM` answers `OK` (40_arbiter.md R100). -/
theorem armResult_ok {e : EpNum} {d : Dir} {n : Nat} : armResult s e d n = .ok ↔
    s.gated e = false ∧ n ≤ s.cfg.mps e d ∧ (s.epDir e d).halted = false ∧
      ((s.epDir e d).bd (s.active e d)).owner = .fw ∧ (s.epDir e d).unread (s.active e d) = false := by
  unfold armResult
  cases s.gated e
  · by_cases hn : n > s.cfg.mps e d
    · simp [hn, Nat.not_le.2 hn]
    · cases (s.epDir e d).halted
      · cases ((s.epDir e d).bd (s.active e d)).owner <;> cases (s.epDir e d).unread (s.active e d) <;>
          simp [hn, Nat.not_lt.1 hn]
      · simp [hn]
  · simp

theorem countsFit_armIn (hwf : s.cfg.wf = true) (h : s.countsFit) {e : EpNum} (he : e.val < s.cfg.nEp) (d : Dir)
    (a n : Nat) : (armIn s e d a n).countsFit := by
  unfold armIn
  split
  · next hr => exact countsFit_armStore h e d a ((armResult_ok.1 hr).2.1.trans (Config.wf_mps hwf he d))
  · exact h

theorem countsFit_cancel (h : s.countsFit) (e : EpNum) (d : Dir) : (cancel s e d).countsFit :=
  State.countsFit_onDir_bd h fun x k => by simp

theorem countsFit_dropCompletions (h : s.countsFit) (e : EpNum) (d : Dir) : (dropCompletions s e d).countsFit :=
  State.countsFit_onDir_bd (s := s.setTcq (dropTc s.tcq e d)) h fun x k => by cases k <;> rfl

theorem countsFit_halted (h : s.countsFit) (e : EpNum) (d : Dir) (hn : s.cfg.mps e d ≤ 1023) :
    (halted s e d).countsFit := by
  refine State.countsFit_onDir (countsFit_cancel (countsFit_dropCompletions h e d) e d) fun hx => ?_
  exact (hx.setBd ((cancel (dropCompletions s e d) e d).hw e d) (b := ⟨_, s.cfg.mps e d, .hw, false, true⟩) hn
    ).of_bd fun k => by
      cases k <;> cases (cancel (dropCompletions s e d) e d).hw e d <;> rfl

theorem countsFit_setHaltIn (hwf : s.cfg.wf = true) (h : s.countsFit) (b : Caller) (e : EpNum) (d : Dir) :
    (setHaltIn s b e d).countsFit := by
  unfold setHaltIn
  split
  · next hr =>
    have he : e.val < s.cfg.nEp := by
      by_contra hlarge
      rw [setHaltResult, if_pos (Nat.not_lt.1 hlarge)] at hr
      cases hr
    have hh := countsFit_halted h e d (Config.wf_mps hwf he d)
    rw [setHaltStore_eq]
    split
    · exact h
    · split
      · unfold hostHalt
        split <;> exact hh
      · exact hh
  · exact h

theorem countsFit_flush (h : s.countsFit) (e : EpNum) (d : Dir) : (flush s e d).countsFit := by
  refine State.countsFit_onDir_bd ?_ fun x k => by cases k <;> rfl
  have hd := countsFit_dropCompletions h e d
  split
  · exact hd
  · exact countsFit_cancel hd e d

theorem countsFit_clearHaltStore (h : s.countsFit) (e : EpNum) (d : Dir) : (clearHaltStore s e d).countsFit := by
  refine State.countsFit_onDir h fun hx => ?_
  exact (hx.setBd (s.hw e d) (b := { (s.epDir e d).bd (s.hw e d) with stall := false, owner := .fw })
    (hx _)).of_bd fun k => by cases k <;> cases s.hw e d <;> rfl

theorem countsFit_endEp0Halt (h : s.countsFit) (d : Dir) : (endEp0Halt s d).countsFit := by
  unfold endEp0Halt
  split
  · refine State.countsFit_onDir h fun hx => ?_
    exact (hx.setBd (s.hw 0 d) (b := { (s.epDir 0 d).bd (s.hw 0 d) with stall := false })
      (hx _)).of_bd fun k => by cases k <;> cases s.hw 0 d <;> rfl
  · exact h

theorem countsFit_returnDesc (h : s.countsFit) (e : EpNum) (p : Pid) {m : Nat} (hm : m ≤ 1023) :
    (returnDesc s e p m).countsFit := by
  rw [returnDesc_eq]
  refine countsFit_of_eps (s := s.onDir e p.dir fun x => x.returned (s.hw e p.dir) (s.pp e p.dir) m) ?_ rfl
  refine State.countsFit_onDir h fun hx => ?_
  exact (hx.setBd (s.hw e p.dir)
    (b := { (s.epDir e p.dir).bd (s.hw e p.dir) with count := m, stall := false, owner := .fw }) hm).of_bd fun k => by simp

theorem countsFit_consumed (h : s.countsFit) (x : Tc) (rest : List Tc) : (consumed s x rest).countsFit := by
  refine State.countsFit_onDir_bd (s := s.setTcq rest) h fun y k => ?_
  dsimp only
  split <;> cases k <;> cases s.rd x.e x.d <;> rfl

theorem countsFit_epInit (hwf : s.cfg.wf = true) (h : s.countsFit) : (epInit s).countsFit := by
  rw [epInit_eq_armStore]
  refine countsFit_armStore (fun e d k => ?_) 0 .out _ (Config.wf_mps hwf (e := 0) (Config.wf_nEp hwf) .out)
  rw [initEndpoints_epDir, EpDir.init_bd]
  exact h e d k

theorem countsFit_restartEndpoints (h : s.countsFit) : (restartEndpoints s).countsFit := by
  intro e d k
  rw [restartEndpoints_epDir]
  split
  · exact h e d k
  · rw [EpDir.restart_bd, Desc.giveBack_count]
    exact h e d k

theorem isMsc_inTable {e : EpNum} {d : Dir} (hwf : s.cfg.wf = true) (hm : s.isMsc e d = true) :
    e ≠ 0 ∧ e.val < s.cfg.nEp := by
  cases d with
  | out =>
    obtain rfl : e = s.cfg.mscOut := by simpa using hm
    exact Config.wf_mscOut hwf
  | inp =>
    obtain rfl : e = s.cfg.mscIn := by simpa using hm
    exact Config.wf_mscIn hwf

theorem BulkOp.countsFit (hwf : s.cfg.wf = true) (hop : BulkOp s t) (h : s.countsFit) : t.countsFit := by
  cases hop with
  | arm e d a n hm => exact countsFit_armIn hwf h (isMsc_inTable hwf hm).2 d a n
  | halt e d => exact countsFit_setHaltIn hwf h .msc e d
  | flush e d => exact countsFit_flush h e d
  | release e d => exact countsFit_clearHaltStore h e d
  | transport m => exact h
  | sense x => exact h
  | output o => exact h
  | lend x => exact h
  | store a bs => exact h

theorem EngineOp.countsFit (hwf : s.cfg.wf = true) (hop : EngineOp s t) (h : s.countsFit) : t.countsFit := by
  cases hop with
  | arm d a n => exact countsFit_armIn hwf h (e := 0) (Config.wf_nEp hwf) d a n
  | halt d => exact countsFit_setHaltIn hwf h .cte 0 d
  | withdraw => exact countsFit_cancel h 0 .inp
  | toggle d => exact State.countsFit_onDir_bd h fun x k => by cases k <;> rfl
  | session x => exact h
  | stage x => exact h
  | hold b => exact h
  | latch p => exact h
  | device x hx => exact h
  | output o => exact h
  | lend x => exact h
  | store a bs => exact h

theorem BulkRun.cfg (h : BulkRun s t) : t.cfg = s.cfg := h.keepsMemory.1
theorem EngineRun.cfg (h : EngineRun s t) : t.cfg = s.cfg := h.keepsMemory.1

theorem BulkRun.countsFit (hwf : s.cfg.wf = true) (hrun : BulkRun s t) (h : s.countsFit) : t.countsFit := by
  induction hrun with
  | refl => exact h
  | tail hr hop ih => exact hop.countsFit (by rwa [BulkRun.cfg hr]) ih

theorem EngineRun.countsFit (hwf : s.cfg.wf = true) (hrun : EngineRun s t) (h : s.countsFit) : t.countsFit := by
  induction hrun with
  | refl => exact h
  | tail hr hop ih => exact hop.countsFit (by rwa [EngineRun.cfg hr]) ih

theorem countsFit_setConfigBody (hwf : s.cfg.wf = true) (h : s.countsFit) (v : Nat) : (setConfigBody s v).countsFit := by
  unfold setConfigBody
  split
  · have hbase : (toMscState (unwind (restartEndpoints s)) .idle).countsFit :=
      countsFit_of_eps (countsFit_restartEndpoints h) (by rw [unwind_eq]; rfl)
    dsimp only
    split
    · refine BulkRun.countsFit ?_ (bulkRun_armOut _) hbase
      rw [unwind_eq]
      exact hwf
    · exact hbase
  · exact h

end

/-! ## What the channel takes -/

section
variable {s t : State}

/-- The descriptor the channel looks at next. -/
def State.nextBd (s : State) (e : EpNum) (d : Dir) : Desc := (s.epDir e d).bd (s.hw e d)

theorem channelIdle_eq_false (s : State) (e : EpNum) (d : Dir) :
    channelIdle s e d = false ↔ (s.nextBd e d).owner = .hw ∧ ¬(e = 0 ∧ s.ep0Hold = true) := by
  unfold channelIdle State.nextBd
  cases ((s.epDir e d).bd (s.hw e d)).owner <;> simp

theorem outHandshake_ack (s : State) (e : EpNum) (tog : Bool) (m : Nat) : outHandshake s e tog m = .ack ↔
    ((s.nextBd e .out).owner = .hw ∧ ¬(e = 0 ∧ s.ep0Hold = true)) ∧ (s.nextBd e .out).stall = false ∧
      m ≤ (s.nextBd e .out).count ∧ tog = (s.nextBd e .out).toggle := by
  rw [← channelIdle_eq_false]
  unfold outHandshake
  change (if channelIdle s e .out = true then Handshake.nak else if (s.nextBd e .out).stall = true then .stall
    else if m > (s.nextBd e .out).count ∨ tog ≠ (s.nextBd e .out).toggle then .none else .ack) = .ack ↔ _
  cases channelIdle s e .out
  · cases (s.nextBd e .out).stall
    · by_cases hm : m > (s.nextBd e .out).count
      · simp [hm, Nat.not_le.2 hm]
      · by_cases ht : tog = (s.nextBd e .out).toggle <;> simp [hm, ht, Nat.not_lt.1 hm]
    · simp
  · simp

theorem inHandshake_ack (s : State) (e : EpNum) : inHandshake s e = .ack ↔
    ((s.nextBd e .inp).owner = .hw ∧ ¬(e = 0 ∧ s.ep0Hold = true)) ∧ (s.nextBd e .inp).stall = false := by
  rw [← channelIdle_eq_false]
  unfold inHandshake
  change (if channelIdle s e .inp = true then Handshake.nak else if (s.nextBd e .inp).stall = true then .stall
    else .ack) = .ack ↔ _
  cases channelIdle s e .inp <;> cases (s.nextBd e .inp).stall <;> simp

theorem setupHandshake_ack (s : State) (m : Nat) : setupHandshake s m = .ack ↔
    ((s.nextBd 0 .out).owner = .hw ∧ s.ep0Hold = false) ∧ m ≤ (s.nextBd 0 .out).count := by
  have hidle : channelIdle s 0 .out = false ↔ (s.nextBd 0 .out).owner = .hw ∧ s.ep0Hold = false := by
    rw [channelIdle_eq_false]
    simp
  rw [← hidle]
  unfold setupHandshake
  change (if channelIdle s 0 .out = true then Handshake.nak else if m > (s.nextBd 0 .out).count then .none
    else .ack) = .ack ↔ _
  cases channelIdle s 0 .out
  · by_cases hm : m > (s.nextBd 0 .out).count
    · simp [hm, Nat.not_le.2 hm]
    · simp [hm, Nat.not_lt.1 hm]
  · simp

/-! ## Every rule keeps the counts -/

theorem countsFit_setupTaken (h : s.countsFit) : (setupTaken s).countsFit :=
  countsFit_cancel (countsFit_endEp0Halt (countsFit_endEp0Halt h .out) .inp) 0 .inp

theorem Rule.countsFit {i : Instr} (hwf : s.cfg.wf = true) (hr : Rule i s t) (h : s.countsFit) : t.countsFit := by
  cases hr with
  | answer r => exact h
  | output o => exact h
  | handshake w => exact h
  | driverAnswer l x => exact h
  | mask b => exact h
  | resetSignal b => exact h
  | arm e d a n he => exact countsFit_armIn hwf h he d a n
  | setHalt e d => exact countsFit_setHaltIn hwf h .command e d
  | clearHalt e d he hb => exact (bulkRun_clearHaltBody hb).countsFit hwf h
  | epInit => exact countsFit_epInit hwf h
  | accept cb => exact (engineRun_acceptBody s cb).countsFit hwf h
  | controlReturn p a r hs hr hb => exact (engineRun_controlReturnBody hb).countsFit hwf h
  | receive b x k => exact (engineRun_receiveBody s b x k).countsFit hwf h
  | reject => exact (engineRun_rejectBody s 8).countsFit hwf h
  | holdAddress a => exact countsFit_of_eps h (by rw [setAddressBody_frame])
  | setConfig v => exact countsFit_setConfigBody hwf h v
  | stackInit => exact countsFit_of_eps (countsFit_epInit hwf h) (by rw [stackInit_eq])
  | busReset => exact countsFit_of_eps (countsFit_epInit hwf h) (by rw [busReset_eq])
  | blockReady p l hb => exact (bulkRun_evBlockReady hb).countsFit hwf h
  | readComplete ok hb => exact (bulkRun_evReadComplete hb).countsFit hwf h
  | writeDataHandled hb => exact (bulkRun_evWriteDataHandled hb).countsFit hwf h
  | writeComplete ok hb => exact (bulkRun_evWriteComplete hb).countsFit hwf h
  | mscReset => exact (bulkRun_mscResetBody s).countsFit hwf h
  | haltCleared d hc hd hn hb => exact (bulkRun_haltCleared hb).countsFit hwf h
  | sendCsw hc hs hb => exact (bulkRun_sendCsw hb).countsFit hwf h
  | command cmd => exact (bulkRun_evalCmd cmd s).countsFit hwf h
  | takeOut e tog b hh hb =>
    rw [takeOut_next hb]
    have hlen := ((outHandshake_ack ..).1 hh).2.2.1
    exact countsFit_returnDesc (s := s.setMem _) h e .out (hlen.trans (h e .out _))
  | sendIn e w => exact countsFit_returnDesc h e .inp (h e .inp _)
  | takeSetup b hh hb =>
    rw [takeSetup_next hb]
    have hlen := ((setupHandshake_ack ..).1 hh).2
    exact countsFit_returnDesc (s := (setupTaken s).setMem _) (countsFit_setupTaken h) 0 .setup
      (hlen.trans (h 0 .out _))
  | takeHead x rest hq hi hb =>
    rw [takeHead_eq hq] at hb
    have hc := countsFit_consumed h x rest
    obtain ⟨-, hrun⟩ | ⟨-, hrun⟩ := handle_run hb
    · exact hrun.countsFit (by exact hwf) hc
    · exact hrun.countsFit (by exact hwf) hc

theorem State.setDrv_drvOf (s : State) (l : Lun) (x : DrvAnswers) (j : Lun) :
    (s.setDrv l x).drvOf j = if j = l then x else s.drvOf j := by
  unfold State.drvOf State.setDrv
  by_cases h : j = l
  · subst h
    simp [Vector.get_eq_getElem]
  · have hv : l.val ≠ j.val := fun hv => h (Fin.ext hv.symm)
    rw [if_neg h]
    simp [Vector.get_eq_getElem, Vector.getElem_set_ne _ _ hv]

theorem offersFit_of_drv (h : s.offersFit) (hd : t.drv = s.drv) : t.offersFit := fun l => by
  rw [State.drvOf, hd]
  exact h l

theorem BulkRun.drv (h : BulkRun s t) : t.drv = s.drv := by rw [h.frame]
theorem EngineRun.drv (h : EngineRun s t) : t.drv = s.drv := by rw [h.frame.2]

/-- A driver's answer is a query row, whose operand fits; no other rule changes the answers. -/
theorem Rule.offersFit {i : Instr} (hi : OffersFit i) (hr : Rule i s t) (h : s.offersFit) : t.offersFit := by
  cases hr with
  | driverAnswer l x hx =>
    intro j
    rw [State.setDrv_drvOf]
    split
    · obtain hx | ⟨a, n, ok, b, k, rfl⟩ := hx
      · rw [hx]
        exact h l
      · exact hi l a n ok b x.capacity k rfl
    · exact h j
  | answer r => exact h
  | output o => exact h
  | handshake w => exact h
  | mask b => exact h
  | resetSignal b => exact h
  | arm e d a n he => exact offersFit_of_drv h (by rw [armIn_frame])
  | setHalt e d => exact offersFit_of_drv h (by rw [setHaltIn_frame])
  | clearHalt e d he hb => exact offersFit_of_drv h (bulkRun_clearHaltBody hb).drv
  | epInit => exact offersFit_of_drv h (by rw [epInit_frame])
  | accept cb => exact offersFit_of_drv h (engineRun_acceptBody s cb).drv
  | controlReturn p a r hs hr hb => exact offersFit_of_drv h (engineRun_controlReturnBody hb).drv
  | receive b x k => exact offersFit_of_drv h (engineRun_receiveBody s b x k).drv
  | reject => exact offersFit_of_drv h (engineRun_rejectBody s 8).drv
  | holdAddress a => exact offersFit_of_drv h (by rw [setAddressBody_frame])
  | setConfig v => exact offersFit_of_drv h (by rw [setConfigBody_frame])
  | stackInit => exact offersFit_of_drv h (by rw [stackInit_eq])
  | busReset => exact offersFit_of_drv h (by rw [busReset_eq])
  | blockReady p l hb => exact offersFit_of_drv h (bulkRun_evBlockReady hb).drv
  | readComplete ok hb => exact offersFit_of_drv h (bulkRun_evReadComplete hb).drv
  | writeDataHandled hb => exact offersFit_of_drv h (bulkRun_evWriteDataHandled hb).drv
  | writeComplete ok hb => exact offersFit_of_drv h (bulkRun_evWriteComplete hb).drv
  | mscReset => exact offersFit_of_drv h (bulkRun_mscResetBody s).drv
  | haltCleared d hc hd hn hb => exact offersFit_of_drv h (bulkRun_haltCleared hb).drv
  | sendCsw hc hs hb => exact offersFit_of_drv h (bulkRun_sendCsw hb).drv
  | command cmd => exact offersFit_of_drv h (bulkRun_evalCmd cmd s).drv
  | takeOut e tog b hh hb => exact offersFit_of_drv h (by rw [takeOut_next hb]; rfl)
  | sendIn e w => exact h
  | takeSetup b hh hb => exact offersFit_of_drv h (by rw [takeSetup_next hb, setupTaken_frame]; rfl)
  | takeHead x rest hq hi hb =>
    rw [takeHead_eq hq] at hb
    obtain ⟨-, hrun⟩ | ⟨-, hrun⟩ := handle_run hb
    · exact offersFit_of_drv h hrun.drv
    · exact offersFit_of_drv h hrun.drv

theorem SessionStep.widths (hwf : s.cfg.wf = true) (hr : SessionStep s t)
    (h : s.cs.remaining ≤ 65535 ∧ s.cs.lastLen ≤ 1023) : t.cs.remaining ≤ 65535 ∧ t.cs.lastLen ≤ 1023 := by
  have hmps : s.cfg.mps0 ≤ 1023 := Config.wf_mps hwf (e := 0) (Config.wf_nEp hwf) .out
  obtain ⟨h1, h2⟩ := h
  cases hr with
  | kept hcs hcte => rw [hcs]; exact ⟨h1, h2⟩
  | ended he hcte hr hl => exact ⟨hr.trans h1, hl.trans h2⟩
  | going hcte hv hr hl => exact ⟨hr.trans (max_le h1 le_rfl), hl.trans (max_le h2 hmps)⟩

end

/-- Settles O10: each of the four parts of `widthsOk` is kept by every rule, with the order of the counters for the bytes
transferred. -/
theorem stepKeepsWidths : Obligations.StepKeepsWidths := by
  unfold Obligations.StepKeepsWidths
  intro s t hc hp hw h
  refine (step_keeps (I := fun u => u.msc.InOrder ∧ u.widthsOk) (fun _ _ => id) (fun _ _ => id) ?_ h
    ⟨(State.inOrder_iff s).2 ⟨hc, hp⟩, hw⟩).2
  intro i u v hi hwf hr ⟨ho, hu⟩
  obtain ⟨hcount, hcs, hmsc, hdrv⟩ := (State.widthsOk_iff u).1 hu
  refine ⟨hr.cfg, hr.mscStep.order ho, (State.widthsOk_iff v).2 ⟨hr.countsFit hwf hcount, ?_, ?_, hr.offersFit hi hdrv⟩⟩
  · exact hr.sessionStep.widths hwf hcs
  · exact hr.mscStep.fits hwf hcount hdrv ho hmsc

/-! ## The gate -/

/-- Nothing above endpoint 0 belongs to the channel, or waits. -/
def State.closed (s : State) : Prop :=
  (∀ e d k, e ≠ 0 → ((s.epDir e d).bd k).owner = .fw) ∧ ∀ x ∈ s.tcq, x.e = 0

section
variable {s t : State}

theorem State.gateOk_iff (s : State) :
    s.gateOk ↔ (s.dev.configurationValue = 0 → s.closed ∧ s.msc.state = .idle) :=
  ⟨fun h hc => ⟨⟨(h hc).1, (h hc).2.1⟩, (h hc).2.2⟩, fun h hc => ⟨(h hc).1.1, (h hc).1.2, (h hc).2⟩⟩

theorem State.gated_of_unconfigured (hc : s.dev.configurationValue = 0) {e : EpNum} (he : e ≠ 0) :
    s.gated e = true := (State.gated_iff s e).2 ⟨he, hc⟩

/-- An operation that rewrites descriptors of endpoint 0 only. -/
theorem State.closed.onDir_zero (h : s.closed) (d : Dir) (f : EpDir → EpDir) : (s.onDir 0 d f).closed := by
  refine ⟨fun e d' k he => ?_, h.2⟩
  rw [State.onDir_epDir_ne _ _ _ _ (.inl he)]
  exact h.1 e d' k he

/-- An operation that gives descriptors back. -/
theorem State.closed.onDir (h : s.closed) {e : EpNum} {d : Dir} {f : EpDir → EpDir}
    (hf : ∀ k, ((f (s.epDir e d)).bd k).owner = ((s.epDir e d).bd k).owner ∨ ((f (s.epDir e d)).bd k).owner = .fw) :
    (s.onDir e d f).closed := by
  refine ⟨fun e' d' k he => ?_, h.2⟩
  obtain ⟨rfl, rfl⟩ | hne := endDir_or e e' d d'
  · rw [State.onDir_epDir_same]
    exact (hf k).elim (fun hk => hk.trans (h.1 _ _ k he)) id
  · rw [State.onDir_epDir_ne _ _ _ _ hne]
    exact h.1 e' d' k he

/-- A queue with fewer records. -/
theorem State.closed.setTcq (h : s.closed) {q : List Tc} (hq : ∀ x ∈ q, x ∈ s.tcq) : (s.setTcq q).closed :=
  ⟨h.1, fun x hx => h.2 x (hq x hx)⟩

theorem State.closed.congr (h : s.closed) (he : t.eps = s.eps) (hq : t.tcq = s.tcq) : t.closed := by
  refine ⟨fun e d k hne => ?_, hq ▸ h.2⟩
  have : t.epDir e d = s.epDir e d := by rw [State.epDir_eq, State.epDir_eq, he]
  rw [this]
  exact h.1 e d k hne

theorem State.closed.dropCompletions (h : s.closed) (e : EpNum) (d : Dir) : (dropCompletions s e d).closed :=
  State.closed.onDir (s := s.setTcq (dropTc s.tcq e d)) (h.setTcq fun _ hx => List.mem_of_mem_filter hx)
    fun k => .inl (by cases k <;> rfl)

theorem State.closed.cancel (h : s.closed) (e : EpNum) (d : Dir) : (cancel s e d).closed :=
  h.onDir fun k => .inr (by simp)

theorem State.closed.flush (h : s.closed) (e : EpNum) (d : Dir) : (flush s e d).closed := by
  refine State.closed.onDir ?_ fun k => .inl (by cases k <;> rfl)
  have hd := h.dropCompletions e d
  split
  · exact hd
  · exact hd.cancel e d

theorem State.closed.halted_zero (h : s.closed) (d : Dir) : (halted s 0 d).closed :=
  ((h.dropCompletions 0 d).cancel 0 d).onDir_zero d _

theorem State.closed.armIn (h : s.closed) (hc : s.dev.configurationValue = 0) (e : EpNum) (d : Dir) (a n : Nat) :
    (armIn s e d a n).closed := by
  by_cases he : e = 0
  · subst he
    unfold Machine.armIn
    split
    · exact h.onDir_zero d _
    · exact h
  · rw [Machine.armIn, armResult_gated (State.gated_of_unconfigured hc he)]
    exact h

/-- On an unconfigured device `SET_HALT` halts endpoint 0, for the engine, or nothing. -/
theorem State.closed.setHaltIn (h : s.closed) (hc : s.dev.configurationValue = 0) (b : Caller) (e : EpNum) (d : Dir) :
    (setHaltIn s b e d).closed := by
  by_cases he : e = 0
  · subst he
    unfold Machine.setHaltIn
    split
    · rw [setHaltStore_eq]
      split
      · exact h
      · split
        · unfold hostHalt
          split
          · exact (h.halted_zero d).congr rfl rfl
          · exact h.halted_zero d
        · exact h.halted_zero d
    · exact h
  · have hr : setHaltResult s b e d ≠ .ok := by
      unfold setHaltResult
      rw [if_pos (State.gated_of_unconfigured hc he)]
      split
      · simp
      · split <;> simp
    rw [Machine.setHaltIn, if_neg hr]
    exact h

theorem State.closed.clearHaltStore (h : s.closed) (e : EpNum) (d : Dir) : (clearHaltStore s e d).closed := by
  refine h.onDir fun k => ?_
  obtain rfl | rfl := Bool.eq_or_eq_not k (s.hw e d)
  · exact .inr (congrArg Desc.owner (EpDir.setBd_bd_same (s.epDir e d) (s.hw e d) _))
  · exact .inl (congrArg Desc.owner (EpDir.setBd_bd_other (s.epDir e d) (s.hw e d) _))

theorem BulkOp.closed (hop : BulkOp s t) (hc : s.dev.configurationValue = 0) (h : s.closed) : t.closed := by
  cases hop with
  | arm e d a n => exact h.armIn hc e d a n
  | halt e d => exact h.setHaltIn hc .msc e d
  | flush e d => exact h.flush e d
  | release e d => exact h.clearHaltStore e d
  | transport m => exact h
  | sense x => exact h
  | output o => exact h
  | lend x => exact h
  | store a bs => exact h

theorem EngineOp.closed (hop : EngineOp s t) (hc : s.dev.configurationValue = 0) (h : s.closed) : t.closed := by
  cases hop with
  | arm d a n => exact h.armIn hc 0 d a n
  | halt d => exact h.setHaltIn hc .cte 0 d
  | withdraw => exact h.cancel 0 .inp
  | toggle d => exact h.onDir_zero d _
  | session x => exact h
  | stage x => exact h
  | hold b => exact h
  | latch p => exact h
  | device x hx => exact h
  | output o => exact h
  | lend x => exact h
  | store a bs => exact h

theorem BulkRun.configurationValue (h : BulkRun s t) : t.dev.configurationValue = s.dev.configurationValue := by
  rw [h.frame]

theorem BulkRun.closed (hrun : BulkRun s t) (hc : s.dev.configurationValue = 0) (h : s.closed) : t.closed := by
  induction hrun with
  | refl => exact h
  | tail hr hop ih => exact hop.closed ((BulkRun.configurationValue hr).trans hc) ih

theorem EngineRun.closed (hrun : EngineRun s t) (hc : s.dev.configurationValue = 0) (h : s.closed) : t.closed := by
  induction hrun with
  | refl => exact h
  | tail hr hop ih => exact hop.closed ((EngineRun.frame hr).1.trans hc) ih

/-- A rule of the transport that consumes nothing. -/
theorem gateOk_of_bulkRun {w : Prop} (hrun : BulkRun s t) (hstep : MscStep .critEnter w s t) (h : s.gateOk) :
    t.gateOk := by
  rw [State.gateOk_iff] at h ⊢
  intro hc
  rw [hrun.configurationValue] at hc
  obtain ⟨hcl, hidle⟩ := h hc
  refine ⟨hrun.closed hc hcl, (hstep.idle hidle).resolve_right ?_⟩
  rintro ⟨c, x, hx⟩
  simp [Consumes] at hx

theorem gateOk_of_engineRun (hrun : EngineRun s t) (h : s.gateOk) : t.gateOk := by
  rw [State.gateOk_iff] at h ⊢
  obtain ⟨hdev, hf⟩ := hrun.frame
  intro hc
  rw [hdev] at hc
  obtain ⟨hcl, hidle⟩ := h hc
  exact ⟨hrun.closed hc hcl, by rw [hf]; exact hidle⟩

theorem gateOk_of_closed (h : s.gateOk) (hdev : t.dev.configurationValue = s.dev.configurationValue)
    (hcl : s.dev.configurationValue = 0 → s.closed → t.closed) (hst : t.msc.state = s.msc.state) : t.gateOk := by
  rw [State.gateOk_iff] at h ⊢
  intro hc
  rw [hdev] at hc
  obtain ⟨h1, h2⟩ := h hc
  exact ⟨hcl hc h1, hst.trans h2⟩

theorem epInit_closed (s : State) : (epInit s).closed := by
  refine ⟨fun e d k he => ?_, by simp⟩
  rw [epInit_epDir_ne s (.inl he), EpDir.init_bd]

/-- A configuration the device offers is a byte, and not 0. -/
theorem ofNat_ne_zero_of_offers {c : Config} {v : Nat} (h : c.offers v = true) (hv : v ≠ 0) : BitVec.ofNat 8 v ≠ 0 := by
  have hle : v ≤ 255 := by
    by_contra hlarge
    rw [Config.offers_large (Nat.not_le.1 hlarge)] at h
    cases h
  intro h0
  have := congrArg BitVec.toNat h0
  rw [BitVec.toNat_ofNat, Nat.mod_eq_of_lt (by omega)] at this
  exact hv this

theorem setConfigResult_ok {v : Nat} : setConfigResult s v = .ok ↔
    s.cteState = .setupReceived ∧ (v = 0 ∨ s.cfg.offers v = true) := by
  unfold setConfigResult
  by_cases hs : s.cteState = .setupReceived
  · by_cases hv : v = 0
    · simp [hs, hv]
    · cases ho : s.cfg.offers v <;> simp [hs, hv]
  · simp [hs]

/-- The state in which `DEV_SET_CONFIG` offers bulk OUT, if it does (42_request_dispatch.md R153). -/
def configSelected (s : State) (v : Nat) : State :=
  let u := toMscState (unwind (restartEndpoints s)) .idle
  u.setDev { u.dev with configurationValue := BitVec.ofNat 8 v }

theorem setConfigBody_eq (s : State) (v : Nat) : setConfigBody s v =
    if setConfigResult s v = .ok then if v ≠ 0 then armOut (configSelected s v) else configSelected s v else s := rfl

theorem configSelected_frame (s : State) (v : Nat) : configSelected s v =
    { s with
      eps := (restartEndpoints s).eps, tcq := s.tcq.filter fun t => t.e == 0
      dev := { s.dev with configurationValue := BitVec.ofNat 8 v }
      msc := { s.msc.clearTransient with state := .idle }, outputs := s.outputs ++ unwound s.msc } := by
  unfold configSelected
  rw [unwind_eq]
  rfl

theorem configSelected_closed (s : State) (v : Nat) : (configSelected s v).closed := by
  refine ⟨fun e d k he => ?_, fun x hx => ?_⟩
  · have hep : (configSelected s v).epDir e d = (restartEndpoints s).epDir e d := by
      rw [configSelected_frame, State.epDir_eq, State.epDir_eq]
    rw [hep, restartEndpoints_epDir, if_neg he, EpDir.restart_bd, Desc.giveBack_owner]
  · rw [configSelected_frame] at hx
    simpa using (List.mem_filter.1 hx).2

theorem gateOk_setConfigBody (h : s.gateOk) (v : Nat) : (setConfigBody s v).gateOk := by
  rw [setConfigBody_eq]
  split
  · next hr =>
    obtain ⟨-, hv⟩ := setConfigResult_ok.1 hr
    split
    · next hne =>
      have hcv := ofNat_ne_zero_of_offers (hv.resolve_left hne) hne
      intro hc
      rw [armOut_frame, configSelected_frame] at hc
      exact absurd hc hcv
    · exact (State.gateOk_iff _).2 fun _ => ⟨configSelected_closed s v, by rw [configSelected_frame]⟩
  · exact h

theorem State.closed.returnDesc (h : s.closed) {e : EpNum} (he : e = 0) (p : Pid) (m : Nat) :
    (returnDesc s e p m).closed := by
  subst he
  rw [returnDesc_eq]
  refine ⟨(h.onDir_zero p.dir fun x => x.returned (s.hw 0 p.dir) (s.pp 0 p.dir) m).1, fun x hx => ?_⟩
  obtain hx | hx := List.mem_append.1 hx
  · exact h.2 x hx
  · rw [List.mem_singleton.1 hx]

theorem State.closed.nextBd_hw (h : s.closed) {e : EpNum} {d : Dir} (ho : (s.nextBd e d).owner = .hw) : e = 0 := by
  by_contra he
  have := h.1 e d (s.hw e d) he
  rw [State.nextBd, this] at ho
  cases ho

theorem State.closed.endEp0Halt (h : s.closed) (d : Dir) : (endEp0Halt s d).closed := by
  unfold Machine.endEp0Halt
  split
  · exact h.onDir_zero d _
  · exact h

theorem State.closed.setupTaken (h : s.closed) : (setupTaken s).closed :=
  ((h.endEp0Halt .out).endEp0Halt .inp).cancel 0 .inp

theorem State.closed.consumed (h : s.closed) (x : Tc) {rest : List Tc} (hq : s.tcq = x :: rest) :
    (consumed s x rest).closed := by
  have hx : x.e = 0 := h.2 x (by rw [hq]; exact List.mem_cons_self)
  unfold Machine.consumed
  dsimp only
  rw [hx]
  exact (h.setTcq fun y hy => by rw [hq]; exact List.mem_cons_of_mem _ hy).onDir_zero _ _

/-- Behind the gate only the engine has completions to handle. -/
theorem gateOk_takeHead {x : Tc} {rest : List Tc} (hq : s.tcq = x :: rest) (hb : takeHead s = .next t) (h : s.gateOk) :
    t.gateOk := by
  rw [takeHead_eq hq] at hb
  by_cases hc : s.dev.configurationValue = 0
  · obtain ⟨hcl, hidle⟩ := (State.gateOk_iff s).1 h hc
    have hg : (consumed s x rest).gateOk := (State.gateOk_iff _).2 fun _ => ⟨hcl.consumed x hq, hidle⟩
    obtain ⟨-, hrun⟩ | ⟨hne, -⟩ := handle_run hb
    · exact gateOk_of_engineRun hrun hg
    · exact absurd (hcl.2 x (by rw [hq]; exact List.mem_cons_self)) hne
  · intro hc'
    obtain ⟨-, hrun⟩ | ⟨-, hrun⟩ := handle_run hb
    · exact absurd (hrun.frame.1.symm.trans hc') hc
    · exact absurd (hrun.configurationValue.symm.trans hc') hc

theorem Rule.gateOk {i : Instr} (hr : Rule i s t) (h : s.gateOk) : t.gateOk := by
  cases hr with
  | answer r => exact h
  | output o => exact h
  | handshake w => exact h
  | driverAnswer l x => exact h
  | mask b => exact h
  | resetSignal b => exact h
  | arm e d a n he =>
    exact gateOk_of_closed h (by rw [armIn_frame]) (fun hc hcl => hcl.armIn hc e d a n) (by rw [armIn_frame])
  | setHalt e d =>
    exact gateOk_of_closed h (by rw [setHaltIn_frame]) (fun hc hcl => hcl.setHaltIn hc .command e d)
      (by rw [setHaltIn_frame])
  | clearHalt e d he hb => exact gateOk_of_bulkRun (w := True) (bulkRun_clearHaltBody hb) (mscStep_clearHaltBody hb) h
  | epInit => exact gateOk_of_closed h (by rw [epInit_frame]) (fun _ _ => epInit_closed s) (by rw [epInit_frame])
  | accept cb => exact gateOk_of_engineRun (engineRun_acceptBody s cb) h
  | controlReturn p a r hs hr hb => exact gateOk_of_engineRun (engineRun_controlReturnBody hb) h
  | receive b x k => exact gateOk_of_engineRun (engineRun_receiveBody s b x k) h
  | reject => exact gateOk_of_engineRun (engineRun_rejectBody s 8) h
  | holdAddress a =>
    refine gateOk_of_closed h ?_ (fun _ hcl => hcl.congr ?_ ?_) ?_ <;> rw [setAddressBody_frame]
  | setConfig v => exact gateOk_setConfigBody h v
  | stackInit =>
    refine (State.gateOk_iff _).2 fun _ => ⟨(epInit_closed s).congr ?_ ?_, ?_⟩
    · rw [stackInit_eq]
    · rw [stackInit_eq, epInit_tcq]
    · rw [stackInit_eq]
  | busReset =>
    refine (State.gateOk_iff _).2 fun _ => ⟨(epInit_closed s).congr ?_ ?_, ?_⟩
    · rw [busReset_eq]
    · rw [busReset_eq, epInit_tcq]
    · rw [busReset_eq]
  | blockReady p l hb => exact gateOk_of_bulkRun (w := True) (bulkRun_evBlockReady hb) (mscStep_evBlockReady hb) h
  | readComplete ok hb => exact gateOk_of_bulkRun (w := True) (bulkRun_evReadComplete hb) (mscStep_evReadComplete hb) h
  | writeDataHandled hb =>
    exact gateOk_of_bulkRun (w := True) (bulkRun_evWriteDataHandled hb) (mscStep_evWriteDataHandled hb) h
  | writeComplete ok hb =>
    exact gateOk_of_bulkRun (w := True) (bulkRun_evWriteComplete hb) (mscStep_evWriteComplete hb) h
  | mscReset hc =>
    intro hc'
    rw [(bulkRun_mscResetBody s).configurationValue] at hc'
    rw [State.configured_eq, hc'] at hc
    cases hc
  | haltCleared d hc hd hn hb => exact gateOk_of_bulkRun (w := True) (bulkRun_haltCleared hb) (mscStep_haltCleared hb) h
  | sendCsw hc hs hb => exact gateOk_of_bulkRun (w := True) (bulkRun_sendCsw hb) (mscStep_sendCsw hs hb) h
  | command cmd hc hs => exact gateOk_of_bulkRun (w := True) (bulkRun_evalCmd cmd s) (mscStep_evalCmd cmd hs) h
  | takeOut e tog b hh hb =>
    rw [takeOut_next hb]
    have ho := ((outHandshake_ack ..).1 hh).1.1
    exact gateOk_of_closed h rfl (fun _ hcl => State.closed.returnDesc (s := s.setMem _) hcl (hcl.nextBd_hw ho) .out _) rfl
  | sendIn e w hh =>
    have ho := ((inHandshake_ack ..).1 hh).1.1
    exact gateOk_of_closed h rfl (fun _ hcl => hcl.returnDesc (hcl.nextBd_hw ho) .inp _) rfl
  | takeSetup b hh hb =>
    rw [takeSetup_next hb]
    refine gateOk_of_closed h ?_
      (fun _ hcl => State.closed.returnDesc (s := (setupTaken s).setMem _) hcl.setupTaken rfl .setup _) ?_
    · rw [setupTaken_frame]; rfl
    · rw [setupTaken_frame]; rfl
  | takeHead x rest hq hi hb => exact gateOk_takeHead hq hb h

end

/-- Settles O9: no rule opens the gate but `DEV_SET_CONFIG` with a value, after which the device is configured. -/
theorem stepKeepsConfigurationGate : Obligations.StepKeepsConfigurationGate := by
  unfold Obligations.StepKeepsConfigurationGate
  intro s t hs h
  exact step_keeps (I := State.gateOk) (fun _ _ => id) (fun _ _ => id) (fun i u v _ _ hr hu => ⟨hr.cfg, hr.gateOk hu⟩) h hs

end Sys2Proof.Machine
end

section
/-! # Halt and stall, and the order of the descriptors (O11)

What the operations on one endpoint direction do to 10_state.md R47 and R48, then the rules. -/

namespace Sys2Proof.Machine

/-! ## One direction -/

/-- `hw_idx` of a direction, 0 when not double-buffered. -/
def EpDir.hw (x : EpDir) (pp : Bool) : Bool := pp && x.hwIdx

/-- 10_state.md R48, of a direction. -/
structure EpDir.HaltAgrees (x : EpDir) (pp : Bool) : Prop where
  halted : x.halted = true → (x.bd (x.hw pp)).stall = true ∧ (x.bd (x.hw pp)).owner = .hw
  free : x.halted = false → (x.bd (x.hw pp)).stall = false
  other : pp = true → (x.bd (!x.hw pp)).stall = false ∧ (x.halted = true → (x.bd (!x.hw pp)).owner = .fw)

theorem State.haltAgrees_iff (s : State) (e : EpNum) (d : Dir) :
    s.haltAgrees e d ↔ (s.epDir e d).HaltAgrees (s.cfg.pingpong e d) := by
  have hindices (j : Bool) : j ∈ s.indices e d ∧ j ≠ s.hw e d ↔ s.cfg.pingpong e d = true ∧ j = !s.hw e d := by
    unfold State.indices State.hw
    rw [State.pp_eq]
    cases s.cfg.pingpong e d <;> cases (s.epDir e d).hwIdx <;> cases j <;> simp
  constructor
  · rintro ⟨h1, h2, h3⟩
    exact ⟨h1.1, h3, fun hp => h2 _ ((hindices _).2 ⟨hp, rfl⟩).1 ((hindices _).2 ⟨hp, rfl⟩).2⟩
  · rintro ⟨h1, h2, h3⟩
    refine ⟨⟨h1, fun ⟨hst, _⟩ => ?_⟩, fun j hj hne => ?_, h2⟩
    · by_contra hh
      have hfree := h2 (by simpa using hh)
      exact absurd hst (by rw [State.hw, State.pp_eq]; rw [EpDir.hw] at hfree; simp [hfree])
    · obtain ⟨hp, rfl⟩ := (hindices j).1 ⟨hj, hne⟩
      exact h3 hp

/-- 10_state.md R47, of a direction. -/
structure EpDir.OrderAgrees (x : EpDir) (pp : Bool) : Prop where
  single : pp = false → (x.bd true).owner = .fw
  halted : pp = true → x.halted = true → x.activeIdx = x.hw pp
  equal : pp = true → x.halted = false → x.activeIdx = x.hw pp → (x.bd (x.hw pp)).owner = (x.bd (!x.hw pp)).owner
  apart : pp = true → x.halted = false → x.activeIdx = !x.hw pp →
    (x.bd (x.hw pp)).owner = .hw ∧ (x.bd (!x.hw pp)).owner = .fw

theorem State.orderAgrees_iff (s : State) (e : EpNum) (d : Dir) :
    s.orderAgrees e d ↔ (s.epDir e d).OrderAgrees (s.cfg.pingpong e d) :=
  ⟨fun ⟨h1, h2⟩ => ⟨h1, fun hp => (h2 hp).1, fun hp => (h2 hp).2.1, fun hp => (h2 hp).2.2⟩,
    fun ⟨h1, h2, h3, h4⟩ => ⟨h1, fun hp => ⟨h2 hp, h3 hp, h4 hp⟩⟩⟩

/-- Both, the order where `o` says it held before. -/
structure EpDir.Agrees (o : Prop) (x : EpDir) (pp : Bool) : Prop where
  halt : x.HaltAgrees pp
  order : o → x.OrderAgrees pp

section
variable {o : Prop} {x y : EpDir} {pp : Bool}

/-- Nothing but the descriptors, the halt and two of the indices is looked at. -/
theorem EpDir.Agrees.congr (h : x.Agrees o pp) (hb : ∀ j, y.bd j = x.bd j) (hh : y.halted = x.halted)
    (hi : y.hwIdx = x.hwIdx) (ha : y.activeIdx = x.activeIdx) : y.Agrees o pp := by
  have hw : y.hw pp = x.hw pp := by rw [EpDir.hw, EpDir.hw, hi]
  obtain ⟨⟨h1, h2, h3⟩, ho⟩ := h
  refine ⟨⟨?_, ?_, ?_⟩, fun hy => ?_⟩
  · simpa only [hb, hh, hw] using h1
  · simpa only [hb, hh, hw] using h2
  · simpa only [hb, hh, hw] using h3
  · obtain ⟨g1, g2, g3, g4⟩ := ho hy
    refine ⟨?_, ?_, ?_, ?_⟩
    · simpa only [hb] using g1
    · simpa only [hh, hw, ha] using g2
    · simpa only [hb, hh, hw, ha] using g3
    · simpa only [hb, hh, hw, ha] using g4

/-- A direction that is not halted, of which the channel owns nothing, and where the next to arm is the one it looks at
next. -/
theorem EpDir.Agrees.of_idle (hh : y.halted = false) (hst : ∀ j, pp = true ∨ j = false → (y.bd j).stall = false)
    (ho : ∀ j, (y.bd j).owner = .fw) (ha : pp = true → y.activeIdx = y.hw pp) : y.Agrees o pp := by
  have hk (j : Bool) (hp : pp = true) : (y.bd j).stall = false := hst j (.inl hp)
  have hfree : (y.bd (y.hw pp)).stall = false := hst _ (by cases pp <;> simp [EpDir.hw])
  refine ⟨⟨fun h => by simp [hh] at h, fun _ => hfree, fun hp => ⟨hk _ hp, fun h => by simp [hh] at h⟩⟩, fun _ => ?_⟩
  refine ⟨fun _ => ho _, fun _ h => by simp [hh] at h, fun _ _ _ => by rw [ho, ho], fun hp _ h => ?_⟩
  rw [ha hp] at h
  cases hw : y.hw pp <;> simp [hw] at h

/-- The stall bits of a direction that is not halted are 0. -/
theorem EpDir.HaltAgrees.stall_free (h : x.HaltAgrees pp) (hh : x.halted = false) {j : Bool}
    (hj : pp = true ∨ j = false) : (x.bd j).stall = false := by
  obtain rfl | rfl := Bool.eq_or_eq_not j (x.hw pp)
  · exact h.free hh
  · cases pp with
    | true => exact (h.other rfl).1
    | false => simp [EpDir.hw] at hj

theorem Desc.giveBack_stall_of_free {b : Desc} (h : b.stall = false) : b.giveBack.stall = false := by
  unfold Desc.giveBack
  split
  · rfl
  · exact h

/-- `cancel` of a direction that is not halted. -/
theorem EpDir.Agrees.cancel (h : x.Agrees o pp) (hh : x.halted = false) : x.cancel.Agrees o pp := by
  refine .of_idle hh (fun j hj => ?_) (fun j => by simp) fun hp => by simp [EpDir.hw, hp]
  rw [EpDir.cancel_bd]
  exact Desc.giveBack_stall_of_free (h.halt.stall_free hh hj)

/-- A stalled descriptor of the channel given back, or any other of a direction that is not stalled, is not stalled. -/
theorem EpDir.HaltAgrees.giveBack_stall (h : x.HaltAgrees pp) {j : Bool} (hj : pp = true ∨ j = false) :
    (x.bd j).giveBack.stall = false := by
  cases hh : x.halted with
  | false => exact Desc.giveBack_stall_of_free (h.stall_free hh hj)
  | true =>
    obtain rfl | rfl := Bool.eq_or_eq_not j (x.hw pp)
    · simp [Desc.giveBack, (h.halted hh).2]
    · cases pp with
      | true => exact Desc.giveBack_stall_of_free (h.other rfl).1
      | false => simp [EpDir.hw] at hj

theorem EpDir.Agrees.restart (h : x.Agrees o pp) : x.restart.Agrees o pp := by
  refine .of_idle rfl (fun j hj => ?_) (fun j => by simp) fun hp => by simp [EpDir.hw, hp, EpDir.restart]
  rw [EpDir.restart_bd]
  exact h.halt.giveBack_stall hj

theorem EpDir.Agrees.init (x : EpDir) : x.init.Agrees o pp :=
  .of_idle rfl (fun j _ => by simp) (fun j => by simp) fun _ => by simp [EpDir.hw]

/-- A direction after `SET_HALT`: the stalled descriptor, and the other one given back. -/
theorem EpDir.Agrees.halted (h : x.Agrees o pp) (hi : y.hwIdx = x.hwIdx) (hh : y.halted = true)
    (hk : (y.bd (x.hw pp)).stall = true ∧ (y.bd (x.hw pp)).owner = .hw)
    (hother : y.bd (!x.hw pp) = (x.bd (!x.hw pp)).giveBack) (ha : pp = true → y.activeIdx = x.hw pp) :
    y.Agrees o pp := by
  have hw : y.hw pp = x.hw pp := by rw [EpDir.hw, EpDir.hw, hi]
  refine ⟨⟨fun _ => by rwa [hw], fun h => by simp [hh] at h, fun hp => ?_⟩, fun _ => ?_⟩
  · rw [hw, hother]
    exact ⟨h.halt.giveBack_stall (.inl hp), fun _ => by simp⟩
  · refine ⟨fun hp => ?_, fun hp _ => by rw [hw, ha hp], fun _ h => by simp [hh] at h, fun _ h => by simp [hh] at h⟩
    have : y.bd true = (x.bd true).giveBack := by simpa [EpDir.hw, hp] using hother
    rw [this, Desc.giveBack_owner]

theorem EpDir.hw_of_single (h : pp = false) : x.hw pp = false := by simp [EpDir.hw, h]

/-- A halted direction after `CLEAR_HALT`. -/
theorem EpDir.Agrees.released (h : x.Agrees o pp) (hh : x.halted = true) (hi : y.hwIdx = x.hwIdx)
    (hy : y.halted = false) (hk : (y.bd (x.hw pp)).stall = false ∧ (y.bd (x.hw pp)).owner = .fw)
    (hother : y.bd (!x.hw pp) = x.bd (!x.hw pp)) (ha : y.activeIdx = x.activeIdx) : y.Agrees o pp := by
  have hw : y.hw pp = x.hw pp := by rw [EpDir.hw, EpDir.hw, hi]
  refine ⟨⟨fun h => by simp [hy] at h, fun _ => by rw [hw]; exact hk.1, fun hp => ?_⟩, fun ho => ?_⟩
  · rw [hw, hother]
    exact ⟨(h.halt.other hp).1, fun h => by simp [hy] at h⟩
  · have hord := h.order ho
    refine ⟨fun hp => ?_, fun _ h => by simp [hy] at h, fun hp _ _ => ?_, fun hp _ hne => ?_⟩
    · rw [EpDir.hw_of_single hp] at hother
      rw [show y.bd true = x.bd true from hother]
      exact hord.single hp
    · rw [hw, hk.2, hother, (h.halt.other hp).2 hh]
    · rw [hw, ha, hord.halted hp hh] at hne
      exact absurd hne (by cases x.hw pp <;> simp)

/-- A halt of endpoint 0 that a SETUP ends: the stalled descriptor stays with the channel. -/
theorem EpDir.Agrees.ended (h : x.Agrees o pp) (hh : x.halted = true) (hi : y.hwIdx = x.hwIdx)
    (hy : y.halted = false) (hk : (y.bd (x.hw pp)).stall = false ∧ (y.bd (x.hw pp)).owner = .hw)
    (hother : y.bd (!x.hw pp) = x.bd (!x.hw pp)) (ha : pp = true → y.activeIdx = !x.hw pp) : y.Agrees o pp := by
  have hw : y.hw pp = x.hw pp := by rw [EpDir.hw, EpDir.hw, hi]
  refine ⟨⟨fun h => by simp [hy] at h, fun _ => by rw [hw]; exact hk.1, fun hp => ?_⟩, fun ho => ?_⟩
  · rw [hw, hother]
    exact ⟨(h.halt.other hp).1, fun h => by simp [hy] at h⟩
  · refine ⟨fun hp => ?_, fun _ h => by simp [hy] at h, fun hp _ heq => ?_, fun hp _ _ => ?_⟩
    · rw [EpDir.hw_of_single hp] at hother
      rw [show y.bd true = x.bd true from hother]
      exact (h.order ho).single hp
    · rw [hw, ha hp] at heq
      exact absurd heq (by cases x.hw pp <;> simp)
    · rw [hw, hother]
      exact ⟨hk.2, (h.halt.other hp).2 hh⟩

/-- A descriptor the channel returns; the next it looks at is then the other, where there is another. -/
theorem EpDir.Agrees.returned (h : x.Agrees o pp) (hh : x.halted = false) (how : (x.bd (x.hw pp)).owner = .hw) (m : Nat) :
    (x.returned (x.hw pp) pp m).Agrees o pp := by
  have hsame : (x.returned (x.hw pp) pp m).bd (x.hw pp) =
      { x.bd (x.hw pp) with count := m, stall := false, owner := .fw } := by simp
  have hother : (x.returned (x.hw pp) pp m).bd (!x.hw pp) = x.bd (!x.hw pp) := by simp
  cases pp with
  | false =>
    have hw : (x.returned (x.hw false) false m).hw false = x.hw false := rfl
    refine ⟨⟨fun h => by simp [hh] at h, fun _ => by rw [hw, hsame], nofun⟩, fun ho => ?_⟩
    refine ⟨fun _ => ?_, nofun, nofun, nofun⟩
    rw [show (x.returned (x.hw false) false m).bd true = x.bd true from hother]
    exact (h.order ho).single rfl
  | true =>
    have hw : (x.returned (x.hw true) true m).hw true = !x.hw true := by simp [EpDir.hw]
    refine ⟨⟨fun h => by simp [hh] at h, fun _ => ?_, fun _ => ⟨?_, fun h => by simp [hh] at h⟩⟩, fun ho => ?_⟩
    · rw [hw, hother]
      exact (h.halt.other rfl).1
    · rw [hw, Bool.not_not, hsame]
    · obtain ⟨-, -, hequal, hapart⟩ := h.order ho
      refine ⟨nofun, fun _ h => by simp [hh] at h, fun _ _ heq => ?_, fun _ _ hne => ?_⟩
      · rw [EpDir.returned_activeIdx, hw] at heq
        rw [hw, Bool.not_not, hsame, hother, (hapart rfl hh heq).2]
      · rw [EpDir.returned_activeIdx, hw, Bool.not_not] at hne
        rw [hw, Bool.not_not, hsame, hother, ← hequal rfl hh hne]
        exact ⟨how, rfl⟩

/-- The descriptor that is next to arm, armed. -/
theorem EpDir.Agrees.armed (h : x.Agrees o pp) (hh : x.halted = false) (hy : y.halted = false)
    (hi : y.hwIdx = x.hwIdx) (hx : (x.bd (pp && x.activeIdx)).owner = .fw)
    (hk : (y.bd (pp && x.activeIdx)).stall = false ∧ (y.bd (pp && x.activeIdx)).owner = .hw)
    (hother : y.bd (!(pp && x.activeIdx)) = x.bd (!(pp && x.activeIdx)))
    (ha : pp = true → y.activeIdx = !x.activeIdx) : y.Agrees o pp := by
  have hw : y.hw pp = x.hw pp := by rw [EpDir.hw, EpDir.hw, hi]
  have hstall (j : Bool) (hj : pp = true ∨ j = false) : (y.bd j).stall = false := by
    obtain rfl | rfl := Bool.eq_or_eq_not j (pp && x.activeIdx)
    · exact hk.1
    · rw [hother]
      exact h.halt.stall_free hh hj
  refine ⟨⟨fun h => by simp [hy] at h, fun _ => hstall _ (by cases pp <;> simp [EpDir.hw]),
    fun hp => ⟨hstall _ (.inl hp), fun h => by simp [hy] at h⟩⟩, fun ho => ?_⟩
  obtain ⟨hsingle, -, hequal, hapart⟩ := h.order ho
  cases pp with
  | false =>
    refine ⟨fun _ => ?_, nofun, nofun, nofun⟩
    rw [show y.bd true = x.bd true from hother]
    exact hsingle rfl
  | true =>
    have ha' := ha rfl
    simp only [Bool.true_and] at hx hk hother
    refine ⟨nofun, fun _ h => by simp [hy] at h, fun _ _ heq => ?_, fun _ _ hne => ?_⟩
    · rw [hw, ha'] at heq
      have hact : x.activeIdx = !x.hw true := by rw [← heq, Bool.not_not]
      rw [hact] at hk hother
      rw [Bool.not_not] at hother
      rw [hw, hk.2, hother]
      exact (hapart rfl hh hact).1
    · rw [hw, ha'] at hne
      have hact : x.activeIdx = x.hw true := Bool.not_inj hne
      rw [hact] at hk hother hx
      rw [hw, hk.2, hother, ← hequal rfl hh hact]
      exact ⟨rfl, hx⟩

end

/-! ## Every direction -/

/-- Every direction agrees. -/
def State.agree (o : Prop) (s : State) : Prop := ∀ e d, (s.epDir e d).Agrees o (s.cfg.pingpong e d)

section
variable {o : Prop} {s t : State}

theorem State.agree.congr (h : s.agree o) (hc : t.cfg = s.cfg) (he : t.eps = s.eps) : t.agree o := by
  intro e d
  have : t.epDir e d = s.epDir e d := by rw [State.epDir_eq, State.epDir_eq, he]
  rw [this, hc]
  exact h e d

theorem State.agree.onDir (h : s.agree o) {e : EpNum} {d : Dir} {f : EpDir → EpDir}
    (hf : (s.epDir e d).Agrees o (s.cfg.pingpong e d) → (f (s.epDir e d)).Agrees o (s.cfg.pingpong e d)) :
    (s.onDir e d f).agree o :=
  forall_onDir (p := fun e d x => x.Agrees o (s.cfg.pingpong e d)) h hf

/-- A direction rewritten, of a state that keeps the others. -/
theorem State.agree.of_dir (h : s.agree o) (hc : t.cfg = s.cfg) (e : EpNum) (d : Dir)
    (hne : ∀ e' d', e' ≠ e ∨ d' ≠ d → t.epDir e' d' = s.epDir e' d')
    (hd : (t.epDir e d).Agrees o (s.cfg.pingpong e d)) : t.agree o := by
  intro e' d'
  rw [hc]
  obtain ⟨rfl, rfl⟩ | hn := endDir_or e e' d d'
  · exact hd
  · rw [hne e' d' hn]
    exact h e' d'

theorem State.agree.armIn (h : s.agree o) (e : EpNum) (d : Dir) (a n : Nat) : (armIn s e d a n).agree o := by
  unfold Machine.armIn
  split
  · next hr =>
    obtain ⟨-, -, hh, hown, -⟩ := armResult_ok.1 hr
    have hk : s.active e d = (s.cfg.pingpong e d && (s.epDir e d).activeIdx) := rfl
    refine h.of_dir rfl e d (fun e' d' hne => armStore_epDir_ne _ _ _ _ _ hne) ?_
    rw [armStore_epDir_eq_setActive]
    refine (h e d).armed hh ?_ ?_ hown ?_ ?_ fun hp => ?_
    · simpa using hh
    · simp
    · rw [← hk]
      simp
    · rw [← hk]
      simp
    · simp [hp, hk]
  · exact h

theorem State.agree.cancel (h : s.agree o) {e : EpNum} {d : Dir} (hh : (s.epDir e d).halted = false) :
    (cancel s e d).agree o := h.onDir fun hx => hx.cancel hh

theorem State.agree.dropCompletions (h : s.agree o) (e : EpNum) (d : Dir) : (dropCompletions s e d).agree o :=
  State.agree.onDir (s := s.setTcq (dropTc s.tcq e d)) h fun hx => hx.congr (fun j => by cases j <;> rfl) rfl rfl rfl

theorem State.agree.halted (h : s.agree o) (e : EpNum) (d : Dir) : (halted s e d).agree o := by
  obtain ⟨hk, hother, hh, -, -, -, -, -, hi, ha⟩ := halted_halts s e d
  have hw : (s.epDir e d).hw (s.cfg.pingpong e d) = s.hw e d := rfl
  refine h.of_dir rfl e d (fun e' d' hne => halted_epDir_ne s e d hne) ((h e d).halted hi hh ?_ ?_ fun hp => ?_)
  · rw [hw, hk]
    exact ⟨rfl, rfl⟩
  · rw [hw, hother]
  · rw [ha, EpDir.hw, hp, Bool.true_and]

theorem State.agree.setHaltIn (h : s.agree o) (b : Caller) (e : EpNum) (d : Dir) : (setHaltIn s b e d).agree o := by
  unfold Machine.setHaltIn
  split
  · rw [setHaltStore_eq]
    split
    · exact h
    · split
      · unfold hostHalt
        split
        · exact (h.halted e d).congr rfl rfl
        · exact h.halted e d
      · exact h.halted e d
  · exact h

theorem State.agree.flush (h : s.agree o) (e : EpNum) (d : Dir) : (flush s e d).agree o := by
  have hd := h.dropCompletions e d
  refine State.agree.onDir ?_ fun hx => hx.congr (fun j => by cases j <;> rfl) rfl rfl rfl
  split
  · exact hd
  · next hh => exact hd.cancel (by simpa using hh)

theorem State.agree.clearHaltStore (h : s.agree o) {e : EpNum} {d : Dir} (hh : (s.epDir e d).halted = true) :
    (clearHaltStore s e d).agree o := by
  refine h.onDir fun hx => hx.released hh (by simp) rfl ?_ ?_ (by simp)
  · exact ⟨congrArg Desc.stall (EpDir.setBd_bd_same (s.epDir e d) (s.hw e d) _),
      congrArg Desc.owner (EpDir.setBd_bd_same (s.epDir e d) (s.hw e d) _)⟩
  · exact EpDir.setBd_bd_other (s.epDir e d) (s.hw e d) _

theorem State.agree.endEp0Halt (h : s.agree o) (d : Dir) : (endEp0Halt s d).agree o := by
  unfold Machine.endEp0Halt
  split
  · next hh =>
    refine h.onDir fun hx => hx.ended hh (by simp) rfl ?_ ?_ fun hp => ?_
    · exact ⟨congrArg Desc.stall (EpDir.setBd_bd_same (s.epDir 0 d) (s.hw 0 d) _),
        (congrArg Desc.owner (EpDir.setBd_bd_same (s.epDir 0 d) (s.hw 0 d) _)).trans (hx.halt.halted hh).2⟩
    · exact EpDir.setBd_bd_other (s.epDir 0 d) (s.hw 0 d) _
    · exact if_pos hp
  · exact h

theorem State.agree.returnDesc (h : s.agree o) {e : EpNum} {p : Pid} (hh : (s.epDir e p.dir).halted = false)
    (how : (s.nextBd e p.dir).owner = .hw) (m : Nat) : (returnDesc s e p m).agree o := by
  rw [returnDesc_eq]
  exact (State.agree.onDir (f := fun x => x.returned (s.hw e p.dir) (s.pp e p.dir) m) h fun hx =>
    hx.returned hh how m).congr rfl rfl

theorem State.agree.consumed (h : s.agree o) (x : Tc) (rest : List Tc) : (consumed s x rest).agree o := by
  refine State.agree.onDir (s := s.setTcq rest) h fun hx => ?_
  dsimp only
  split <;> exact hx.congr (fun j => by cases j <;> cases s.rd x.e x.d <;> rfl) (by simp) (by simp) (by simp)

theorem State.agree.epInit (s : State) : (epInit s).agree o := by
  have hinit : (initEndpoints s).agree o := fun e d => by
    rw [initEndpoints_epDir]
    exact .init _
  rw [epInit_eq_armStore]
  have harm := hinit.armIn 0 .out (s.cfg.epbuf 0 .out false) s.cfg.mps0
  rwa [armIn_clear _ (initEndpoints_clear s 0 .out) (by simp) (by exact le_rfl)] at harm

theorem State.agree.restartEndpoints (h : s.agree o) : (restartEndpoints s).agree o := by
  intro e d
  rw [restartEndpoints_epDir]
  split
  · exact h e d
  · exact (h e d).restart

theorem State.agree.toggled (h : s.agree o) (hh : (s.epDir 0 .inp).halted = false) : (toggled s).agree o :=
  ((h.cancel hh).onDir fun hx => hx.congr (fun _ => rfl) rfl rfl rfl).onDir fun hx => hx.congr (fun _ => rfl) rfl rfl rfl

theorem BulkOp.agree (hop : BulkOp s t) (h : s.agree o) : t.agree o := by
  cases hop with
  | arm e d a n => exact h.armIn e d a n
  | halt e d => exact h.setHaltIn .msc e d
  | flush e d => exact h.flush e d
  | release e d hh => exact h.clearHaltStore hh
  | transport m => exact h
  | sense x => exact h
  | output o => exact h
  | lend x => exact h
  | store a bs => exact h

theorem BulkRun.agree (hrun : BulkRun s t) (h : s.agree o) : t.agree o := by
  induction hrun with
  | refl => exact h
  | tail _ hop ih => exact hop.agree ih

end

/-! ## Endpoint 0 -/

/-- The SETUP transactions that wait in `TCQ`. -/
def State.setups (s : State) : Nat := s.tcq.count ⟨0, .setup⟩

/-- `ep0Ok`, with the SETUPs counted. -/
structure Ep0 (s : State) : Prop where
  waiting : s.cteState = .setupReceived → s.ep0Hold = true ∧ s.setups = 0
  queued : 0 < s.setups → s.ep0Hold = true ∧ ∀ d, (s.epDir 0 d).halted = false
  one : s.setups ≤ 1
  halted : (s.epDir 0 .inp).halted = true → s.cteState = .idle

theorem State.ep0Ok_iff (s : State) : s.ep0Ok ↔ Ep0 s := by
  have hmem : ⟨0, .setup⟩ ∈ s.tcq ↔ 0 < s.setups := List.count_pos_iff.symm
  have hnot : ⟨0, .setup⟩ ∉ s.tcq ↔ s.setups = 0 := List.count_eq_zero.symm
  unfold State.ep0Ok
  rw [hnot, hmem]
  exact ⟨fun ⟨h1, h2, h3, h4⟩ => ⟨h1, h2, h3, h4⟩, fun ⟨h1, h2, h3, h4⟩ => ⟨h1, h2, h3, h4⟩⟩

section
variable {o : Prop} {s t : State}

/-- An operation that halts neither direction of endpoint 0 and queues no SETUP. -/
theorem Ep0.mono (h : Ep0 s) (hc : t.cteState = s.cteState) (hh : t.ep0Hold = s.ep0Hold) (hq : t.setups ≤ s.setups)
    (hd : ∀ d, (t.epDir 0 d).halted = true → (s.epDir 0 d).halted = true) : Ep0 t where
  waiting hs := by
    obtain ⟨h1, h2⟩ := h.waiting (hc ▸ hs)
    exact ⟨hh.trans h1, by omega⟩
  queued hp := by
    obtain ⟨h1, h2⟩ := h.queued (by omega)
    refine ⟨hh.trans h1, fun d => ?_⟩
    by_contra hne
    have := hd d (by simpa using hne)
    rw [h2 d] at this
    cases this
  one := hq.trans h.one
  halted hp := hc.trans (h.halted (hd .inp hp))

/-- A session that has ended, with no SETUP queued. -/
theorem Ep0.of_idle (hc : s.cteState = .idle) (h0 : s.setups = 0) : Ep0 s :=
  ⟨fun h => by simp [hc] at h, fun h => by omega, by omega, fun _ => hc⟩

/-- A session that goes on, with no SETUP queued and endpoint 0 IN not halted. -/
theorem Ep0.of_going (hc : s.cteState ≠ .setupReceived) (h0 : s.setups = 0) (hh : (s.epDir 0 .inp).halted = false) :
    Ep0 s :=
  ⟨fun h => absurd h hc, fun h => by omega, by omega, fun h => by simp [hh] at h⟩

/-- What every rule keeps. -/
structure HaltInv (o : Prop) (s : State) : Prop where
  agree : s.agree o
  ep0 : Ep0 s

theorem HaltInv.congr (h : HaltInv o s) (hcfg : t.cfg = s.cfg) (he : t.eps = s.eps) (hc : t.cteState = s.cteState)
    (hh : t.ep0Hold = s.ep0Hold) (hq : t.tcq = s.tcq) : HaltInv o t := by
  refine ⟨h.agree.congr hcfg he, h.ep0.mono hc hh (by rw [State.setups, State.setups, hq]) fun d hd => ?_⟩
  rwa [State.epDir_eq, he, ← State.epDir_eq] at hd

theorem armIn_halted (s : State) (e : EpNum) (d : Dir) (a n : Nat) (e' : EpNum) (d' : Dir) :
    ((armIn s e d a n).epDir e' d').halted = (s.epDir e' d').halted := by
  unfold armIn
  split
  · obtain ⟨rfl, rfl⟩ | hne := endDir_or e e' d d'
    · rw [armStore_epDir_eq_setActive]
      simp
    · rw [armStore_epDir_ne _ _ _ _ _ hne]
  · rfl

theorem Ep0.armIn (h : Ep0 s) (e : EpNum) (d : Dir) (a n : Nat) : Ep0 (armIn s e d a n) := by
  refine h.mono ?_ ?_ ?_ fun d' hd => by rwa [armIn_halted] at hd
  · rw [armIn_frame]
  · rw [armIn_frame]
  · rw [armIn_frame]
    exact le_rfl

theorem HaltInv.armIn (h : HaltInv o s) (e : EpNum) (d : Dir) (a n : Nat) : HaltInv o (armIn s e d a n) :=
  ⟨h.agree.armIn e d a n, h.ep0.armIn e d a n⟩

theorem HaltInv.armEp0Out (h : HaltInv o s) : HaltInv o (armEp0Out s) := h.armIn ..
theorem HaltInv.armEp0Zlp (h : HaltInv o s) : HaltInv o (armEp0Zlp s) := h.armIn ..

theorem setups_dropTc_le (q : List Tc) (e : EpNum) (d : Dir) :
    (dropTc q e d).count ⟨0, .setup⟩ ≤ q.count ⟨0, .setup⟩ := (List.filter_sublist (l := q)).count_le _

theorem setups_dropTc_zero_out (q : List Tc) : (dropTc q 0 .out).count ⟨0, .setup⟩ = 0 := by
  rw [List.count_eq_zero]
  intro h
  simpa [Tc.d, Pid.dir] using (List.mem_filter.1 h).2

/-- `SET_HALT` leaves every other direction alone. -/
theorem setHaltIn_epDir_ne (s : State) (b : Caller) (e : EpNum) (d : Dir) {e' : EpNum} {d' : Dir}
    (h : e' ≠ e ∨ d' ≠ d) : (setHaltIn s b e d).epDir e' d' = s.epDir e' d' := by
  have hh := halted_epDir_ne s e d h
  unfold setHaltIn
  split
  · rw [setHaltStore_eq]
    split
    · rfl
    · split
      · unfold hostHalt
        split <;> exact hh
      · exact hh
  · rfl

theorem setHaltIn_setups_le (s : State) (b : Caller) (e : EpNum) (d : Dir) : (setHaltIn s b e d).setups ≤ s.setups := by
  have hh : (halted s e d).setups ≤ s.setups := setups_dropTc_le s.tcq e d
  unfold setHaltIn
  split
  · rw [setHaltStore_eq]
    split
    · exact le_rfl
    · split
      · unfold hostHalt
        split <;> exact hh
      · exact hh
  · exact le_rfl

theorem Ep0.setHaltIn (h : Ep0 s) (b : Caller) {e : EpNum} (he : e ≠ 0) (d : Dir) : Ep0 (setHaltIn s b e d) := by
  refine h.mono ?_ ?_ (setHaltIn_setups_le s b e d) fun d' hd => ?_
  · rw [setHaltIn_frame]
  · rw [setHaltIn_frame]
  · rwa [setHaltIn_epDir_ne _ _ _ _ (.inl he.symm)] at hd

theorem flush_epDir_ne (s : State) (e : EpNum) (d : Dir) {e' : EpNum} {d' : Dir} (h : e' ≠ e ∨ d' ≠ d) :
    (flush s e d).epDir e' d' = s.epDir e' d' := by
  unfold flush
  rw [State.onDir_epDir_ne _ _ _ _ h]
  split
  · exact dropCompletions_epDir_ne _ _ _ h
  · exact (cancel_epDir_ne _ _ _ h).trans (dropCompletions_epDir_ne _ _ _ h)

theorem BulkOp.ep0 (hwf : s.cfg.wf = true) (hop : BulkOp s t) (h : Ep0 s) : Ep0 t := by
  cases hop with
  | arm e d a n => exact h.armIn e d a n
  | halt e d hm => exact h.setHaltIn .msc (isMsc_inTable hwf hm).1 d
  | flush e d hm =>
    refine h.mono ?_ ?_ ?_ fun d' hd => ?_
    · rw [flush_frame]
    · rw [flush_frame]
    · rw [flush_frame]
      exact setups_dropTc_le s.tcq e d
    · rwa [flush_epDir_ne _ _ _ (.inl (isMsc_inTable hwf hm).1.symm)] at hd
  | release e d hh =>
    refine h.mono rfl rfl le_rfl fun d' hd => ?_
    obtain ⟨rfl, rfl⟩ | hne := endDir_or e 0 d d'
    · exact hh
    · rwa [clearHaltStore, State.onDir_epDir_ne _ _ _ _ hne] at hd
  | transport m => exact ⟨h.waiting, h.queued, h.one, h.halted⟩
  | sense x => exact ⟨h.waiting, h.queued, h.one, h.halted⟩
  | output o => exact ⟨h.waiting, h.queued, h.one, h.halted⟩
  | lend x => exact ⟨h.waiting, h.queued, h.one, h.halted⟩
  | store a bs => exact ⟨h.waiting, h.queued, h.one, h.halted⟩

theorem BulkRun.ep0 (hwf : s.cfg.wf = true) (hrun : BulkRun s t) (h : Ep0 s) : Ep0 t := by
  induction hrun with
  | refl => exact h
  | tail hr hop ih => exact hop.ep0 (by rwa [BulkRun.cfg hr]) ih

theorem BulkRun.haltInv (hwf : s.cfg.wf = true) (hrun : BulkRun s t) (h : HaltInv o s) : HaltInv o t :=
  ⟨hrun.agree h.agree, hrun.ep0 hwf h.ep0⟩

end

end Sys2Proof.Machine
end

section
/-! # The rules keep halt and stall in agreement (O11) -/

namespace Sys2Proof.Machine

section
variable {o : Prop} {s t : State}

/-! ## The dispositions -/

theorem haltInv_chunkSent (h : HaltInv o s) : HaltInv o (chunkSent s) := by
  have hstored : HaltInv o (chunkStored s) := h.congr rfl rfl rfl rfl rfl
  exact (hstored.armIn 0 .inp (s.nextBuf 0 .inp) s.chunkLen).congr rfl rfl rfl rfl rfl

/-- The disposition ends the hold: the SETUP it answers is no longer queued. -/
theorem haltInv_disposed (h : HaltInv o s) (hs : s.cteState = .setupReceived) (he : t.eps = s.eps)
    (hc : t.cfg = s.cfg) (hq : t.tcq = s.tcq) (ht : t.cteState ≠ .setupReceived) : HaltInv o t := by
  refine ⟨h.agree.congr hc he, .of_going ht ?_ ?_⟩
  · rw [State.setups, hq]
    exact (h.ep0.waiting hs).2
  · rw [State.epDir_eq, he, ← State.epDir_eq]
    by_contra hh
    have := h.ep0.halted (by simpa using hh)
    simp [hs] at this

theorem haltInv_acceptBody (h : HaltInv o s) (cb : Option Nat) (hs : s.cteState = .setupReceived) :
    HaltInv o (acceptBody s cb) := by
  rw [acceptBody_eq]
  exact (haltInv_disposed (t := statusOpened s cb) h hs rfl rfl rfl (by simp [statusOpened])).armEp0Zlp.armEp0Out

theorem haltInv_receiveBody (h : HaltInv o s) (b x k : Nat) (hs : s.cteState = .setupReceived) :
    HaltInv o (receiveBody s b x k) := by
  have hopen : HaltInv o (receiveOpened s b x k) :=
    haltInv_disposed h hs rfl rfl rfl (by unfold receiveOpened; split <;> simp)
  rw [receiveBody_eq]
  split
  · exact hopen.armEp0Zlp.armEp0Out
  · exact hopen.armEp0Out

theorem haltInv_controlReturnBody {p a r : Nat} (h : HaltInv o s) (hs : s.cteState = .setupReceived)
    (hb : controlReturnBody s p a r = .next t) : HaltInv o t := by
  have hopen : HaltInv o (returnOpened s p a r) :=
    haltInv_disposed h hs rfl rfl rfl (by simp [returnOpened])
  have hsent := (haltInv_chunkSent hopen).armEp0Out
  have hq : (armEp0Out (chunkSent (returnOpened s p a r))).tcq = s.tcq := by rw [armEp0Out_frame, chunkSent_frame]; rfl
  rw [controlReturnBody_next hb]
  refine ⟨hsent.agree, .of_going ?_ ?_ ?_⟩
  · rw [State.setHold_cteState, armEp0Out_frame, chunkSent_frame]
    simp [returnOpened]
  · rw [State.setups, State.setHold_tcq, hq]
    exact (h.ep0.waiting hs).2
  · by_contra hh
    have := hsent.ep0.halted (by simpa using hh)
    rw [armEp0Out_frame, chunkSent_frame] at this
    simp [returnOpened] at this

/-! ## Endpoint 0 halted by the engine -/

theorem agree_rejected (h : s.agree o) (n : Nat) : (rejected s n).agree o := by
  unfold rejected
  split
  · rw [armEp0Out_eq]
    exact (h.setHaltIn .cte 0 .inp).armIn 0 .out _ _
  · exact (h.setHaltIn .cte 0 .inp).setHaltIn .cte 0 .out

theorem haltEp0_setups_le (s : State) : (haltEp0 s).setups ≤ s.setups :=
  (setHaltIn_setups_le _ .cte 0 .out).trans (setHaltIn_setups_le s .cte 0 .inp)

theorem rejected_setups_le (s : State) (n : Nat) : (rejected s n).setups ≤ s.setups := by
  unfold rejected
  split
  · rw [armEp0Out_frame]
    exact setHaltIn_setups_le s .cte 0 .inp
  · exact haltEp0_setups_le s

theorem haltInv_rejectBody (h : s.agree o) (h0 : s.setups = 0) (n : Nat) : HaltInv o (rejectBody s n) := by
  have hle := rejected_setups_le (s.setHold false) n
  rw [rejectBody_eq]
  refine ⟨(agree_rejected (s := s.setHold false) h n).congr rfl rfl, .of_idle rfl ?_⟩
  change (rejected (s.setHold false) n).setups = 0
  change (rejected (s.setHold false) n).setups ≤ s.setups at hle
  omega

theorem isMsc_zero (hwf : s.cfg.wf = true) (d : Dir) : s.isMsc 0 d = false := by
  by_contra hm
  exact (isMsc_inTable hwf (by simpa using hm)).1 rfl

/-- Both directions halted: no completion of endpoint 0 OUT is left, a SETUP among them. -/
theorem haltEp0_setups (hwf : s.cfg.wf = true) (h : Ep0 s) : (haltEp0 s).setups = 0 := by
  have hle := setHaltIn_setups_le s .cte 0 .inp
  have hdir : (setHaltIn s .cte 0 .inp).epDir 0 .out = s.epDir 0 .out := setHaltIn_epDir_ne _ _ _ _ (.inr (by simp))
  have hcfg : (setHaltIn s .cte 0 .inp).cfg = s.cfg := by rw [setHaltIn_frame]
  cases hh : (s.epDir 0 .out).halted with
  | true =>
    have hs : s.setups = 0 := by
      by_contra hne
      have := (h.queued (Nat.pos_of_ne_zero hne)).2 .out
      rw [hh] at this
      cases this
    have := haltEp0_setups_le s
    omega
  | false =>
    unfold haltEp0
    rw [setHaltIn_cte (by rw [hcfg]; exact Config.wf_nEp hwf) (isMsc_zero (by rwa [hcfg]) _) (by rwa [hdir])]
    exact setups_dropTc_zero_out _

theorem haltInv_localProtocol (hwf : s.cfg.wf = true) (h : HaltInv o s) : HaltInv o (raise s .localProtocolEp0) := by
  have hh : (haltEp0 s).agree o := (h.agree.setHaltIn .cte 0 .inp).setHaltIn .cte 0 .out
  rw [localProtocol_eq]
  exact ⟨hh.congr rfl rfl, .of_idle rfl (haltEp0_setups hwf h.ep0)⟩

/-! ## Completions of endpoint 0 -/

/-- A session that ends, with endpoint 0 as it was. -/
theorem haltInv_ended (h : HaltInv o s) (he : t.eps = s.eps) (hc : t.cfg = s.cfg) (hq : t.tcq = s.tcq)
    (hh : t.ep0Hold = s.ep0Hold) (ht : t.cteState = .idle) : HaltInv o t := by
  refine ⟨h.agree.congr hc he, ⟨fun hs => by simp [ht] at hs, fun hp => ?_, ?_, fun _ => ht⟩⟩
  · rw [State.setups, hq] at hp
    obtain ⟨h1, h2⟩ := h.ep0.queued hp
    exact ⟨hh.trans h1, fun d => by rw [State.epDir_eq, he, ← State.epDir_eq]; exact h2 d⟩
  · rw [State.setups, hq]
    exact h.ep0.one

/-- A stage that goes on to another one. -/
theorem haltInv_stage (h : HaltInv o s) (hs : s.cteState ≠ .idle) {x : CteState} (hx : x ≠ .setupReceived) :
    HaltInv o (s.setCte x) :=
  ⟨h.agree, ⟨fun he => absurd he hx, h.ep0.queued, h.ep0.one, fun hh => absurd (h.ep0.halted hh) hs⟩⟩

theorem haltInv_completeSession (h : HaltInv o s) : HaltInv o (completeSession s) := by
  rw [completeSession_eq]
  exact haltInv_ended h rfl rfl rfl rfl rfl

theorem haltInv_onCteIn (h : HaltInv o s) (hb : onCteIn s = .next t) : HaltInv o t := by
  unfold onCteIn at hb
  split at hb
  · next hs =>
    split at hb
    · rw [sendChunk_next hb]
      exact haltInv_chunkSent h
    · split at hb <;> cases hb
      · exact h.armEp0Zlp.congr rfl rfl rfl rfl rfl
      · exact haltInv_stage h (by simp [hs]) (by simp)
  · split at hb <;> cases hb
    · exact haltInv_completeSession h
    · exact h
  all_goals cases hb; exact h

theorem haltInv_dataTaken (h : HaltInv o s) (n buf : Nat) (hs : s.cteState ≠ .idle) : HaltInv o (dataTaken s n buf) := by
  have hstored : HaltInv o (dataStored s n buf) :=
    (h.congr (t := (s.setMem (Memory.writeBytes s.mem s.cs.cursor (s.bytes buf n))).setCs
      { s.cs with cursor := s.cs.cursor + n, remaining := s.cs.remaining - n }) rfl rfl rfl rfl rfl).armEp0Out
  unfold dataTaken
  split
  · refine (haltInv_stage hstored ?_ (by simp)).armEp0Zlp
    rw [dataStored_frame]
    exact hs
  · exact hstored

/-- An early status packet: IN, which is not halted while a session runs, is withdrawn. -/
theorem haltInv_withdrawn (h : HaltInv o s) (hs : s.cteState ≠ .idle) : HaltInv o (cancel s 0 .inp) := by
  have hh : (s.epDir 0 .inp).halted = false := by
    by_contra hh
    exact hs (h.ep0.halted (by simpa using hh))
  refine ⟨h.agree.cancel hh, h.ep0.mono rfl rfl le_rfl fun d hd => ?_⟩
  obtain ⟨-, rfl⟩ | hne := endDir_or (0 : EpNum) 0 .inp d
  · rwa [cancel_epDir] at hd
  · rwa [cancel_epDir_ne _ _ _ hne] at hd

theorem haltInv_onCteOut {n buf : Nat} (hwf : s.cfg.wf = true) (h : HaltInv o s) (hb : onCteOut s n buf = .next t) :
    HaltInv o t := by
  unfold onCteOut at hb
  split at hb
  · next hs =>
    obtain ⟨-, rfl⟩ | ⟨-, rfl⟩ := onDataOut_next hb
    · exact haltInv_localProtocol hwf h
    · exact haltInv_dataTaken h n buf (by simp [hs])
  · next hs =>
    split at hb <;> cases hb
    · have hw := haltInv_withdrawn h (by simp [hs])
      refine HaltInv.armEp0Out (s := abortSession (cancel s 0 .inp)) ?_
      rw [abortSession_eq]
      exact haltInv_ended hw rfl rfl rfl rfl rfl
    · exact haltInv_localProtocol hwf h
  · split at hb
    · split at hb <;> cases hb
      · exact (haltInv_completeSession h).armEp0Out
      · exact h.armEp0Out
    · cases hb; exact haltInv_localProtocol hwf h
  · cases hb; exact h.armEp0Out
  · cases hb; exact h

/-- A SETUP just consumed: it held endpoint 0, had ended its halts, and was the only one. -/
structure SetupConsumed (o : Prop) (s : State) : Prop where
  agree : s.agree o
  hold : s.ep0Hold = true
  setups : s.setups = 0
  free : ∀ d, (s.epDir 0 d).halted = false

theorem haltInv_setupArrived (h : SetupConsumed o s) : HaltInv o (setupArrived s) := by
  have hdir (d : Dir) : (sessionFailed s).epDir 0 d = s.epDir 0 d := by
    rw [State.epDir_eq, State.epDir_eq, sessionFailed_frame]
  have hagree : (toggled (sessionFailed s)).agree o := by
    refine State.agree.toggled (h.agree.congr ?_ ?_) ?_
    · rw [sessionFailed_frame]
    · rw [sessionFailed_frame]
    · rw [hdir]
      exact h.free .inp
  have hq : (setupArrived s).setups = 0 := by
    rw [State.setups, setupArrived_eq]
    change (sessionFailed s).tcq.count _ = 0
    rw [sessionFailed_frame]
    exact h.setups
  refine ⟨hagree, ⟨fun _ => ⟨?_, hq⟩, fun hp => by omega, by omega, fun hh => ?_⟩⟩
  · change (sessionFailed s).ep0Hold = true
    rw [sessionFailed_frame]
    exact h.hold
  · have hin : ((toggled (sessionFailed s)).epDir 0 .inp).halted = false := by
      unfold toggled
      rw [State.onDir_epDir_ne _ _ _ _ (.inr (by simp)), State.onDir_epDir_same, cancel_epDir]
      exact (congrArg EpDir.halted (hdir .inp)).trans (h.free .inp)
    exact absurd hh (by simpa [setupArrived_eq] using hin)

theorem haltInv_onCteSetup {n buf : Nat} (h : SetupConsumed o s) (hb : onCteSetup s n buf = .next t) :
    HaltInv o t := by
  have harr := haltInv_setupArrived h
  obtain ⟨-, rfl⟩ | ⟨-, rfl⟩ := onCteSetup_next hb
  · exact haltInv_rejectBody harr.agree (harr.ep0.waiting rfl).2 n
  · exact harr.congr rfl rfl rfl rfl rfl

/-! ## The channel, and the consumption of a completion -/

theorem setups_append (s : State) (e : EpNum) (p : Pid) (hp : p ≠ .setup) :
    (s.tcq ++ [(⟨e, p⟩ : Tc)]).count (⟨0, .setup⟩ : Tc) = s.setups := by
  have hnot : (⟨0, .setup⟩ : Tc) ∉ [(⟨e, p⟩ : Tc)] := by simp [hp.symm]
  rw [List.count_append, List.count_eq_zero_of_not_mem hnot]
  rfl

/-- A direction with a descriptor of the channel that is not stalled is not halted. -/
theorem State.agree.not_halted (h : s.agree o) {e : EpNum} {d : Dir} (hst : (s.nextBd e d).stall = false) :
    (s.epDir e d).halted = false := by
  by_contra hh
  have := ((h e d).halt.halted (by simpa using hh)).1
  rw [show ((s.epDir e d).bd ((s.epDir e d).hw (s.cfg.pingpong e d))).stall = (s.nextBd e d).stall from rfl, hst] at this
  cases this

theorem returnDesc_halted (s : State) (e : EpNum) (p : Pid) (m : Nat) (e' : EpNum) (d' : Dir) :
    ((returnDesc s e p m).epDir e' d').halted = (s.epDir e' d').halted := by
  rw [returnDesc_eq, State.setTcq_epDir]
  obtain ⟨rfl, rfl⟩ | hne := endDir_or e e' p.dir d'
  · rw [State.onDir_epDir_same, EpDir.returned_halted]
  · rw [State.onDir_epDir_ne _ _ _ _ hne]

/-- An OUT or IN transaction. -/
theorem haltInv_returned (h : HaltInv o s) (e : EpNum) {p : Pid} (hp : p ≠ .setup)
    (hst : (s.nextBd e p.dir).stall = false) (how : (s.nextBd e p.dir).owner = .hw) (m : Nat) :
    HaltInv o (returnDesc s e p m) := by
  refine ⟨h.agree.returnDesc (h.agree.not_halted hst) how m, h.ep0.mono rfl rfl ?_ fun d hd => ?_⟩
  · exact (setups_append s e p hp).le
  · rwa [returnDesc_halted] at hd

theorem endEp0Halt_not_halted (s : State) (d : Dir) : ((endEp0Halt s d).epDir 0 d).halted = false := by
  rw [endEp0Halt_epDir]
  split
  · simp
  · next hh => simpa using hh

theorem endEp0Halts_not_halted (s : State) (d : Dir) :
    ((endEp0Halt (endEp0Halt s .out) .inp).epDir 0 d).halted = false := by
  cases d with
  | out =>
    rw [endEp0Halt_other _ _ (.inr (by simp))]
    exact endEp0Halt_not_halted s .out
  | inp => exact endEp0Halt_not_halted _ .inp

theorem setupTaken_not_halted (s : State) (d : Dir) : ((setupTaken s).epDir 0 d).halted = false := by
  have hends := endEp0Halts_not_halted s d
  unfold setupTaken
  rw [State.setHold_epDir]
  cases d with
  | out => rwa [cancel_epDir_ne _ _ _ (.inr (by simp))]
  | inp => rwa [cancel_epDir]

theorem agree_setupTaken (h : s.agree o) : (setupTaken s).agree o :=
  ((h.endEp0Halt .out).endEp0Halt .inp).cancel (endEp0Halts_not_halted s .inp)

/-- The end of its halts leaves endpoint 0 OUT's descriptor with the channel. -/
theorem setupTaken_nextBd (s : State) : (setupTaken s).nextBd 0 .out =
    if (s.epDir 0 .out).halted then { s.nextBd 0 .out with stall := false } else s.nextBd 0 .out := by
  have hdir : (setupTaken s).epDir 0 .out = (endEp0Halt s .out).epDir 0 .out := by
    unfold setupTaken
    rw [State.setHold_epDir, cancel_epDir_ne _ _ _ (.inr (by simp)), endEp0Halt_other _ _ (.inr (by simp))]
  have hcfg : (setupTaken s).cfg = s.cfg := by rw [setupTaken_frame]
  have hhw : (setupTaken s).hw 0 .out = s.hw 0 .out := by
    rw [State.hw, State.hw, State.pp_eq, State.pp_eq, hcfg, hdir, endEp0Halt_epDir]
    split <;> simp
  rw [State.nextBd, hhw, hdir, endEp0Halt_epDir]
  split
  · exact EpDir.setBd_bd_same (s.epDir 0 .out) (s.hw 0 .out) _
  · rfl

theorem haltInv_takeSetup {b : List Byte} (h : HaltInv o s) (hh : setupHandshake s b.length = .ack)
    (hb : takeSetup s b = .next t) : HaltInv o t := by
  obtain ⟨⟨how, hhold⟩, -⟩ := (setupHandshake_ack ..).1 hh
  have h0 : s.setups = 0 := by
    by_contra hne
    have := (h.ep0.queued (Nat.pos_of_ne_zero hne)).1
    rw [hhold] at this
    cases this
  have hown : ((setupTaken s).nextBd 0 .out).owner = .hw := by
    rw [setupTaken_nextBd]
    split <;> exact how
  have hq : (setupTaken s).tcq = s.tcq := by rw [setupTaken_frame]
  have hcount : t.setups = 1 := by
    rw [takeSetup_next hb, State.setups, State.show_tcq, returnDesc_tcq, State.setMem_tcq, hq, List.count_append]
    change s.setups + _ = 1
    rw [h0]
    rfl
  have hdirs (d : Dir) : (t.epDir 0 d).halted = false := by
    rw [takeSetup_next hb, State.show_epDir, returnDesc_halted, State.setMem_epDir]
    exact setupTaken_not_halted s d
  have hheld : t.ep0Hold = true := by rw [takeSetup_next hb, setupTaken_frame]; rfl
  have hcte : t.cteState = s.cteState := by rw [takeSetup_next hb, setupTaken_frame]; rfl
  refine ⟨?_, ⟨fun hs => ?_, fun _ => ⟨hheld, hdirs⟩, by omega, fun hh => by simp [hdirs] at hh⟩⟩
  · rw [takeSetup_next hb]
    exact State.agree.returnDesc (s := (setupTaken s).setMem _) (p := .setup) (agree_setupTaken h.agree)
      (setupTaken_not_halted s .out) hown b.length
  · rw [hcte] at hs
    have := (h.ep0.waiting hs).1
    rw [hhold] at this
    cases this

theorem consumed_halted (s : State) (x : Tc) (rest : List Tc) (e : EpNum) (d : Dir) :
    ((consumed s x rest).epDir e d).halted = (s.epDir e d).halted := by
  obtain ⟨rfl, rfl⟩ | hne := endDir_or x.e e x.d d
  · rw [consumed_epDir]
    dsimp only
    split <;> simp
  · rw [consumed_epDir_ne _ _ _ hne]

theorem haltInv_takeHead {x : Tc} {rest : List Tc} (hwf : s.cfg.wf = true) (h : HaltInv o s) (hq : s.tcq = x :: rest)
    (hb : takeHead s = .next t) : HaltInv o t := by
  have hagree := h.agree.consumed x rest
  have hset : s.setups = rest.count ⟨0, .setup⟩ + if x = ⟨0, .setup⟩ then 1 else 0 := by
    rw [State.setups, hq, List.count_cons]
    simp
  have hrest : (consumed s x rest).setups = rest.count ⟨0, .setup⟩ := rfl
  have hcons : HaltInv o (consumed s x rest) := by
    refine ⟨hagree, h.ep0.mono rfl rfl (by omega) fun d hd => ?_⟩
    rwa [consumed_halted] at hd
  rw [takeHead_eq hq] at hb
  by_cases he : x.e = 0
  · rw [handle, if_pos he] at hb
    split at hb
    · next hp =>
      have hx : x = ⟨0, .setup⟩ := by
        cases x
        exact congrArg₂ Tc.mk he hp
      rw [if_pos hx] at hset
      have hone := h.ep0.one
      obtain ⟨hhold, hfree⟩ := h.ep0.queued (by omega)
      exact haltInv_onCteSetup ⟨hagree, hhold, by omega, fun d => by rw [consumed_halted]; exact hfree d⟩ hb
    · exact haltInv_onCteIn hcons hb
    · exact haltInv_onCteOut (by exact hwf) hcons hb
  · obtain ⟨h0, -⟩ | ⟨-, hrun⟩ := handle_run hb
    · exact absurd h0 he
    · exact hrun.haltInv (by exact hwf) hcons

/-! ## Every rule -/

theorem haltInv_reset (he : t.eps = (epInit s).eps) (hcfg : t.cfg = s.cfg) (hq : t.tcq = []) (hc : t.cteState = .idle) :
    HaltInv o t :=
  ⟨(State.agree.epInit s).congr (by rw [hcfg, epInit_frame]) he, .of_idle hc (by rw [State.setups, hq]; rfl)⟩

theorem haltInv_setConfigBody (hwf : s.cfg.wf = true) (h : HaltInv o s) (v : Nat) : HaltInv o (setConfigBody s v) := by
  have hsel : HaltInv o (configSelected s v) := by
    have hdir (d : Dir) : (configSelected s v).epDir 0 d = s.epDir 0 d := by
      have hsel : (configSelected s v).epDir 0 d = (restartEndpoints s).epDir 0 d := by
        rw [configSelected_frame, State.epDir_eq, State.epDir_eq]
      rw [hsel, restartEndpoints_epDir, if_pos rfl]
    refine ⟨h.agree.restartEndpoints.congr ?_ ?_, h.ep0.mono ?_ ?_ ?_ fun d hd => by rwa [hdir] at hd⟩
    · rw [configSelected_frame]; rfl
    · rw [configSelected_frame]
    · rw [configSelected_frame]
    · rw [configSelected_frame]
    · rw [configSelected_frame]
      exact (List.filter_sublist (l := s.tcq)).count_le _
  rw [setConfigBody_eq]
  split
  · split
    · refine BulkRun.haltInv ?_ (bulkRun_armOut _) hsel
      rw [configSelected_frame]
      exact hwf
    · exact hsel
  · exact h

theorem Rule.haltInv {i : Instr} (hi : i ≠ .epInit) (hwf : s.cfg.wf = true) (hr : Rule i s t) (h : HaltInv o s) :
    HaltInv o t := by
  cases hr with
  | answer r => exact h.congr rfl rfl rfl rfl rfl
  | output o => exact h.congr rfl rfl rfl rfl rfl
  | handshake w => exact h.congr rfl rfl rfl rfl rfl
  | driverAnswer l x => exact h.congr rfl rfl rfl rfl rfl
  | mask b => exact h.congr rfl rfl rfl rfl rfl
  | resetSignal b => exact h.congr rfl rfl rfl rfl rfl
  | arm e d a n he => exact h.armIn e d a n
  | setHalt e d =>
    by_cases he : e = 0
    · have hr : setHaltResult s .command e d ≠ .ok := by
        unfold setHaltResult
        split
        · simp
        · simp [he]
      rw [setHaltIn, if_neg hr]
      exact h
    · exact ⟨h.agree.setHaltIn .command e d, h.ep0.setHaltIn .command he d⟩
  | clearHalt e d he hb => exact (bulkRun_clearHaltBody hb).haltInv hwf h
  | epInit he => exact absurd he hi
  | accept cb hs => exact haltInv_acceptBody h cb hs
  | controlReturn p a r hs hr hb => exact haltInv_controlReturnBody h hs hb
  | receive b x k hs => exact haltInv_receiveBody h b x k hs
  | reject hs => exact haltInv_rejectBody h.agree (h.ep0.waiting hs).2 8
  | holdAddress a =>
    rw [setAddressBody_frame]
    exact h.congr rfl rfl rfl rfl rfl
  | setConfig v => exact haltInv_setConfigBody hwf h v
  | stackInit =>
    rw [stackInit_eq]
    exact haltInv_reset (s := s) rfl rfl rfl rfl
  | busReset =>
    rw [busReset_eq]
    exact haltInv_reset (s := s) rfl rfl rfl rfl
  | blockReady p l hb => exact (bulkRun_evBlockReady hb).haltInv hwf h
  | readComplete ok hb => exact (bulkRun_evReadComplete hb).haltInv hwf h
  | writeDataHandled hb => exact (bulkRun_evWriteDataHandled hb).haltInv hwf h
  | writeComplete ok hb => exact (bulkRun_evWriteComplete hb).haltInv hwf h
  | mscReset => exact (bulkRun_mscResetBody s).haltInv hwf h
  | haltCleared d hc hd hn hb => exact (bulkRun_haltCleared hb).haltInv hwf h
  | sendCsw hc hs hb => exact (bulkRun_sendCsw hb).haltInv hwf h
  | command cmd => exact (bulkRun_evalCmd cmd s).haltInv hwf h
  | takeOut e tog b hh hb =>
    obtain ⟨⟨how, -⟩, hst, -, -⟩ := (outHandshake_ack ..).1 hh
    rw [takeOut_next hb]
    have hstored : HaltInv o (s.setMem (Memory.writeBytes s.mem ((s.epDir e .out).bd (s.hw e .out)).addr b)) :=
      h.congr rfl rfl rfl rfl rfl
    exact (haltInv_returned hstored e (p := .out) (by simp) hst how b.length).congr rfl rfl rfl rfl rfl
  | sendIn e w hh =>
    obtain ⟨⟨how, -⟩, hst⟩ := (inHandshake_ack ..).1 hh
    exact (haltInv_returned h e (p := .inp) (by simp) hst how _).congr rfl rfl rfl rfl rfl
  | takeSetup b hh hb => exact haltInv_takeSetup h hh hb
  | takeHead x rest hq hc hb => exact haltInv_takeHead hwf h hq hb

end

theorem State.haltInv_iff (o : Prop) (s : State) : HaltInv o s ↔ s.haltOk ∧ (o → s.orderOk) ∧ s.ep0Ok := by
  rw [State.ep0Ok_iff]
  constructor
  · rintro ⟨ha, h0⟩
    exact ⟨fun e d => (s.haltAgrees_iff e d).2 (ha e d).halt, fun ho e d => (s.orderAgrees_iff e d).2 ((ha e d).order ho),
      h0⟩
  · rintro ⟨hh, ho, h0⟩
    exact ⟨fun e d => ⟨(s.haltAgrees_iff e d).1 (hh e d), fun h => (s.orderAgrees_iff e d).1 (ho h e d)⟩, h0⟩

/-- `EP_INIT` keeps the agreement from every state, and the facts about endpoint 0 where no SETUP waits for its
disposition. -/
theorem epInit_haltInv (o : Prop) (s : State) :
    (epInit s).agree o ∧ (s.cteState ≠ .setupReceived → Ep0 (epInit s)) := by
  refine ⟨.epInit s, fun hs => ⟨fun hc => ?_, fun hp => ?_, ?_, fun hh => ?_⟩⟩
  · rw [epInit_frame] at hc
    exact absurd hc hs
  · rw [State.setups, epInit_tcq] at hp
    cases hp
  · rw [State.setups, epInit_tcq]
    exact Nat.zero_le _
  · rw [epInit_epDir_ne s (.inr (by simp))] at hh
    cases hh

/-- Settles O11: every rule keeps `HaltInv`, of which `EP_INIT` alone keeps the part about the descriptors only. -/
theorem haltAndStallAgree : Obligations.HaltAndStallAgree := by
  unfold Obligations.HaltAndStallAgree
  intro s t i hwf hh h0 h
  have hs : HaltInv s.orderOk s := (State.haltInv_iff _ s).2 ⟨hh, id, h0⟩
  by_cases hi : i = .epInit
  · subst hi
    obtain ⟨hagree, hep0⟩ := epInit_haltInv s.orderOk s
    rw [exec_epInit] at h
    cases h
    refine ⟨fun e d => (State.haltAgrees_iff _ e d).2 (hagree e d).halt, fun hc => ?_, fun ho e d =>
      (State.orderAgrees_iff _ e d).2 ((hagree e d).order ho)⟩
    have h0' := hep0 (hc rfl)
    exact (State.ep0Ok_iff _).2 ⟨h0'.waiting, h0'.queued, h0'.one, h0'.halted⟩
  · have ht : HaltInv s.orderOk t ∧ t.cfg = s.cfg :=
      (exec_ran h).keeps (I := fun u => HaltInv s.orderOk u ∧ u.cfg = s.cfg)
        (fun u v hr ⟨hu, hc⟩ => ⟨hr.haltInv hi (by rwa [hc]) hu, hr.cfg.trans hc⟩) ⟨hs, rfl⟩
    obtain ⟨hhalt, horder, hep0⟩ := (State.haltInv_iff _ t).1 ht.1
    exact ⟨hhalt, fun _ => hep0, horder⟩

end Sys2Proof.Machine
end

section
/-! # The step, the reset state, and the commands that are rejected (O1, O5, O15) -/

namespace Sys2Proof.Machine

/-- Settles O1: the configuration is good and no bus reset comes first, so the record decoded is run. -/
theorem stepRunsDecodedInstruction : Obligations.StepRunsDecodedInstruction := by
  unfold Obligations.StepRunsDecodedInstruction
  intro s r rest i hwf hr hin hdec
  have hno : ¬(s.busResetPending = true ∧ s.tcIrqEn = true) := fun ⟨hp, hi⟩ => by simp [hr hp] at hi
  unfold step
  rw [hin]
  simp [unlessReset, hwf, hno, runInput, runRecord, hdec]

/-! ## The reset state -/

theorem Dir.forall {p : Dir → Prop} : (∀ d, p d) ↔ p .out ∧ p .inp :=
  ⟨fun h => ⟨h .out, h .inp⟩, fun h d => by cases d; exacts [h.1, h.2]⟩

theorem reset_sessionOk : State.reset.sessionOk := by
  unfold State.sessionOk
  decide

theorem reset_counters : State.reset.countersOk ∧ State.reset.pumpOk := by
  unfold State.countersOk State.pumpOk
  decide

theorem reset_gateOk : State.reset.gateOk := by
  unfold State.gateOk
  simp only [Dir.forall]
  decide

theorem reset_widthsOk : State.reset.widthsOk := by
  unfold State.widthsOk
  simp only [Dir.forall]
  decide

theorem reset_haltOk : State.reset.haltOk := by
  unfold State.haltOk State.haltAgrees
  simp only [Dir.forall]
  decide

theorem reset_ep0Ok : State.reset.ep0Ok := by
  unfold State.ep0Ok
  simp only [Dir.forall]
  decide

/-- No direction of `CFG1` is double-buffered. -/
theorem reset_orderOk : State.reset.orderOk := by
  have hpp : ∀ e d, State.reset.cfg.pingpong e d = false := by simp only [Dir.forall]; decide
  have hown : ∀ e d, ((State.reset.epDir e d).bd true).owner = .fw := by simp only [Dir.forall]; decide
  intro e d
  exact ⟨fun _ => hown e d, fun h => by simp [hpp] at h⟩

/-- Settles O5: each invariant is decided on the one state. -/
theorem resetMeetsInvariants : Obligations.ResetMeetsInvariants := by
  obtain ⟨hcounters, hpump⟩ := reset_counters
  exact ⟨⟨by decide, State.reset_mem_wf, reset_sessionOk, hcounters, hpump, reset_gateOk, reset_widthsOk⟩,
    reset_haltOk, reset_ep0Ok, reset_orderOk⟩

/-! ## Rejected commands -/

/-- A result code other than `OK` is all the command left. -/
def Rejects (s t : State) : Prop := ∀ r, t.reply = some (.code r) → r ≠ .ok → t = s.answer (.code r)

section
variable {s t : State}

theorem rejects_answerCode {u : State} {r : ResultCode} (hu : r ≠ .ok → u = s) (h : answerCode u r = .next t) :
    Rejects s t := by
  intro r' ht hr
  rw [answerCode_next h] at ht ⊢
  obtain rfl : r = r' := by simpa using ht
  rw [hu hr]

theorem rejects_ok {u : State} (h : answerCode u .ok = .next t) : Rejects s t :=
  rejects_answerCode (fun h => absurd rfl h) h

theorem rejects_answerOk {f : Res} (h : answerOk f = .next t) : Rejects s t := by
  obtain ⟨u, -, hu⟩ := thenRun_next h
  exact rejects_ok hu

theorem rejects_guard {c : Prop} [Decidable c] {r : ResultCode} {f : Res}
    (h : (if c then answerCode s r else f) = .next t) (hf : f = .next t → Rejects s t) : Rejects s t := by
  split at h
  · exact rejects_answerCode (fun _ => rfl) h
  · exact hf h

theorem rejects_onEndpoint {e : Nat} {f : EpNum → Res} (h : onEndpoint e s f = .next t)
    (hf : ∀ e, f e = .next t → Rejects s t) : Rejects s t := by
  unfold onEndpoint at h
  split at h
  · exact hf _ h
  · exact rejects_answerCode (fun _ => rfl) h

theorem rejects_arm {e : EpNum} {d : Dir} {a n : Nat} (h : execArm e d a n s = .next t) : Rejects s t := by
  unfold execArm at h
  split at h
  · cases h
  · exact rejects_answerCode (fun hr => if_neg hr) h

theorem rejects_queryLen {e : Nat} {d : Dir} (h : execQueryLen e d s = .next t) : Rejects s t :=
  rejects_onEndpoint h fun _ h => rejects_guard h fun h => rejects_guard h fun h => rejects_guard h fun h => by
    cases h
    intro r hr
    cases hr

theorem rejects_setHalt {e : Nat} {d : Dir} (h : execSetHalt e d s = .next t) : Rejects s t :=
  rejects_onEndpoint h fun _ => rejects_answerCode fun hr => if_neg hr

theorem rejects_clearHalt {e : Nat} {d : Dir} (h : execClearHalt e d s = .next t) : Rejects s t :=
  rejects_onEndpoint h fun _ h => by
    split at h
    · exact rejects_answerOk h
    · exact rejects_answerCode (fun _ => rfl) h

theorem rejects_startControlReturn {p a n : Nat} (h : execStartControlReturn p a n s = .next t) : Rejects s t :=
  rejects_guard h fun h => rejects_guard h fun h => by
    split at h
    · exact rejects_ok h
    · exact rejects_answerOk h

end

/-- Settles O15: a command writes what it writes where its result is `OK`, and otherwise answers the state it found. -/
theorem rejectedCommandChangesNothing : Obligations.RejectedCommandChangesNothing := by
  unfold Obligations.RejectedCommandChangesNothing
  intro s t i r hi h
  suffices Rejects s t from this r
  cases i with
  | arm e d a n => exact rejects_arm h
  | queryLen e d => exact rejects_queryLen h
  | setHalt e d => exact rejects_setHalt h
  | clearHalt e d => exact rejects_clearHalt h
  | epInit => exact rejects_ok h
  | critEnter => exact rejects_ok h
  | critExit => exact rejects_ok h
  | startControlReturn p a n => exact rejects_startControlReturn h
  | startReceive b x k => exact rejects_guard h fun h => rejects_guard h rejects_ok
  | accept cb => exact rejects_guard h rejects_ok
  | reject => exact rejects_guard h rejects_ok
  | devSetAddress a => exact rejects_answerCode (fun hr => if_neg hr) h
  | devSetConfig v => exact rejects_answerCode (fun hr => if_neg hr) h
  | mscReset => exact rejects_guard h rejects_ok
  | mscHaltCleared d => exact rejects_guard h fun h => rejects_guard h rejects_answerOk
  | _ => exact hi.elim

end Sys2Proof.Machine
end

section
/-! # The arbiter's commands (40_arbiter.md R106, R109, R110)

`QUERY_LEN`, `SET_HALT` and `CLEAR_HALT` name an endpoint by a number of any size; one lemma each says what the command
answers for an endpoint of the table (O17, O18). -/

namespace Sys2Proof.Machine

section
variable {s : State}

theorem onEndpoint_rejects {n : Nat} {f : EpNum → Res} (h : ∀ e : EpNum, e.val = n → f e = answerCode s .errArg) :
    onEndpoint n s f = .next (s.answer (.code .errArg)) := by
  unfold onEndpoint
  split
  · next hn => exact h ⟨n, hn⟩ rfl
  · rfl

theorem exec_queryLen_eq (s : State) (n : Nat) (d : Dir) :
    exec (.queryLen n d) s = onEndpoint n s fun e => queryLen e d s := rfl

theorem exec_setHalt_eq (s : State) (n : Nat) (d : Dir) : exec (.setHalt n d) s =
    onEndpoint n s fun e => answerCode (setHaltIn s .command e d) (setHaltResult s .command e d) := rfl

theorem State.gated_of {e : EpNum} (he : e ≠ 0) (hc : s.dev.configurationValue = 0) : s.gated e = true :=
  (State.gated_iff s e).2 ⟨he, hc⟩

theorem State.not_gated_of {e : EpNum} (h : e = 0 ∨ s.dev.configurationValue ≠ 0) : s.gated e = false := by
  obtain rfl | hc := h
  · exact State.gated_zero s
  · exact State.gated_configured hc e

end

/-! ## The rearmed bits -/

theorem EpDir.setRearmed_rearmed (x : EpDir) (k r j : Bool) :
    (x.setRearmed k r).rearmed j = if j = k then r else x.rearmed j := by
  cases k <;> cases j <;> rfl

section
variable (s : State) (e : EpNum) (d : Dir)

theorem armStore_rearmed (a n : Nat) (j : Bool) : ((armStore s e d a n).epDir e d).rearmed j =
    if j = s.active e d then true else (s.epDir e d).rearmed j := by
  rw [armStore_epDir_eq_setActive, EpDir.setActive_rearmed, EpDir.setRearmed_rearmed, EpDir.setBd_rearmed]

theorem EpDir.init_rearmed (x : EpDir) (j : Bool) : x.init.rearmed j = x.rearmed j := by cases j <;> rfl

theorem epInit_rearmed (j : Bool) : ((epInit s).epDir e d).rearmed j =
    if e = 0 ∧ d = .out ∧ j = false then true else (s.epDir e d).rearmed j := by
  obtain ⟨rfl, rfl⟩ | h := endDir_or 0 e .out d
  · rw [epInit_epDir_zero_out, EpDir.setActive_rearmed, EpDir.setRearmed_rearmed, EpDir.setBd_rearmed, EpDir.init_rearmed]
    simp
  · have hne : ¬(e = 0 ∧ d = .out ∧ j = false) := fun ⟨h0, hd, _⟩ => h.elim (· h0) (· hd)
    rw [epInit_epDir_ne s h, EpDir.init_rearmed, if_neg hne]

theorem consumed_rearmed (x : Tc) (rest : List Tc) (j : Bool) : ((consumed s x rest).epDir x.e x.d).rearmed j =
    if j = s.rd x.e x.d then false else (s.epDir x.e x.d).rearmed j := by
  rw [consumed_epDir]
  cases s.cfg.pingpong x.e x.d <;> cases s.rd x.e x.d <;> cases j <;> rfl

end

/-! ## `QUERY_LEN` -/

section
variable {s : State} {e : EpNum} (d : Dir)

theorem exec_queryLen (he : e.val < s.cfg.nEp) : exec (.queryLen e d) s =
    if s.gated e then answerCode s .errNotConfigured
    else if (s.epDir e d).stale (s.lastRead e d) then answerCode s .errOwner
    else .next (s.answer (.length ((s.epDir e d).bd (s.lastRead e d)).count)) := by
  rw [exec_queryLen_eq, onEndpoint_val]
  exact if_neg (Nat.not_le.2 he)

theorem State.lastRead_eq (s : State) (e : EpNum) (d : Dir) :
    s.lastRead e d = if s.cfg.pingpong e d then !(s.epDir e d).rdIdx else false := by
  unfold State.lastRead
  rw [State.pp_eq]
  cases s.cfg.pingpong e d <;> rfl

theorem EpDir.stale_iff (x : EpDir) (k : Bool) :
    x.stale k = true ↔ (x.bd k).owner = .hw ∨ x.unread k = true ∨ x.rearmed k = true := by
  simp only [EpDir.stale, Bool.or_eq_true, beq_iff_eq]
  tauto

end

/-- Settles O17: the gate, then whether the count is stale; and who writes the bits that remember an `ARM`. -/
theorem queryLenReturnsCount : Obligations.QueryLenReturnsCount := by
  unfold Obligations.QueryLenReturnsCount
  refine ⟨fun s e d he => ?_, fun s e d he => ?_, fun s t e d j => ⟨fun a n h hok => ?_, fun h => ?_, ?_⟩⟩
  · rw [exec_queryLen_eq]
    exact onEndpoint_rejects fun i hi => if_pos (hi ▸ he)
  · dsimp only
    rw [← State.lastRead_eq, exec_queryLen d he]
    refine ⟨fun h0 hc => ?_, fun h hown hun hre => ?_, fun h hst => ?_⟩
    · rw [if_pos (State.gated_of h0 hc)]
      rfl
    · have hstale : ¬(s.epDir e d).stale (s.lastRead e d) = true := by
        rw [EpDir.stale_iff]
        simp [hown, hun, hre]
      rw [State.not_gated_of h, if_neg Bool.false_ne_true, if_neg hstale]
    · rw [State.not_gated_of h, if_neg Bool.false_ne_true, if_pos ((EpDir.stale_iff ..).2 hst)]
      rfl
  · by_cases he : s.cfg.nEp ≤ e.val
    · rw [exec_arm_outOfTable a he] at h
      cases h
    · rw [exec_arm_inTable a (Nat.not_le.1 he)] at h
      rw [answerCode_next h, State.answer_epDir, armIn, if_pos (answerCode_reply_ok h hok), armStore_rearmed]
  · rw [exec_epInit] at h
    cases h
    exact epInit_rearmed s e d j
  · intro p rest hirq hq h0 hm h
    rw [exec_evTc_head hirq hq, handle_external _ _ h0 hm] at h
    cases h
    rw [State.emit_epDir]
    exact consumed_rearmed s ⟨e, p⟩ rest j

/-! ## `SET_HALT` -/

theorem State.isMsc_iff (s : State) (e : EpNum) (d : Dir) :
    s.isMsc e d = true ↔ (e = s.cfg.mscIn ∧ d = .inp) ∨ (e = s.cfg.mscOut ∧ d = .out) := by
  cases d <;> simp

theorem State.inDataPhase_iff (s : State) :
    s.inDataPhase = true ↔ s.msc.state = .dataIn ∨ s.msc.state = .dataOut := by
  simp [State.inDataPhase]

/-- A bulk direction while the transport moves data. -/
def State.busy (s : State) (e : EpNum) (d : Dir) : Prop := s.isMsc e d = true ∧ s.inDataPhase = true

section
variable {s : State} {e : EpNum} {d : Dir}

theorem exec_setHalt (s : State) (e : EpNum) (d : Dir) :
    exec (.setHalt e d) s = answerCode (setHaltIn s .command e d) (setHaltResult s .command e d) := by
  rw [exec_setHalt_eq, onEndpoint_val]

theorem exec_setHalt_rejected {r : ResultCode} (hr : setHaltResult s .command e d = r) (hne : r ≠ .ok) :
    exec (.setHalt e d) s = .next (s.answer (.code r)) := by
  rw [exec_setHalt, setHaltIn, hr, if_neg hne]
  rfl

theorem setHaltResult_command (he : e.val < s.cfg.nEp) (h0 : e ≠ 0) (hc : s.dev.configurationValue ≠ 0) :
    setHaltResult s .command e d = if s.isMsc e d = true ∧ s.inDataPhase = true then .errState else .ok := by
  simp [setHaltResult, Nat.not_le.2 he, h0, State.gated_configured hc]

/-- `SET_HALT` given as a command, on a direction not yet halted: the transport withdraws an armed CSW. -/
theorem setHaltStore_command (hh : (s.epDir e d).halted = false) :
    setHaltStore s .command e d = hostHalt (halted s e d) e d := by
  rw [setHaltStore_eq, if_neg (by simp [hh])]
  cases hm : s.isMsc e d with
  | true => simp
  | false =>
    have hne : ¬(e = s.cfg.mscIn ∧ d = .inp ∧ s.msc.cswArmed = true) := fun ⟨h1, h2, _⟩ => by
      rw [(State.isMsc_iff s e d).2 (.inl ⟨h1, h2⟩)] at hm
      cases hm
    rw [if_neg (by simp)]
    exact (if_neg hne).symm

theorem hostHalt_eq (u : State) (e : EpNum) (d : Dir) : hostHalt u e d =
    { u with msc := if e = u.cfg.mscIn ∧ d = .inp ∧ u.msc.cswArmed = true then { u.msc with cswArmed := false }
                    else u.msc } := by
  unfold hostHalt
  split <;> rfl

theorem exec_setHalt_halts (he : e.val < s.cfg.nEp) (h0 : e ≠ 0) (hc : s.dev.configurationValue ≠ 0)
    (hb : ¬s.busy e d) (hh : (s.epDir e d).halted = false) :
    exec (.setHalt e d) s = .next ((hostHalt (halted s e d) e d).answer (.code .ok)) := by
  have hr : setHaltResult s .command e d = .ok := (setHaltResult_command he h0 hc).trans (if_neg hb)
  rw [exec_setHalt, setHaltIn_ok hr, setHaltStore_command hh, hr]
  rfl

theorem hostHalt_epDir (u : State) (e : EpNum) (d : Dir) (e' : EpNum) (d' : Dir) :
    (hostHalt u e d).epDir e' d' = u.epDir e' d' := by
  rw [State.epDir_eq, State.epDir_eq, hostHalt_eq]

end

/-- What `SET_HALT` given as a command leaves of a direction not yet halted. -/
theorem exec_setHalt_next {s : State} {e : EpNum} {d : Dir} (he : e.val < s.cfg.nEp) (h0 : e ≠ 0)
    (hc : s.dev.configurationValue ≠ 0) (hb : ¬s.busy e d) (hh : (s.epDir e d).halted = false) :
    ∃ t, exec (.setHalt e d) s = .next t ∧ Halts s t e d ∧
      (t.tcq = s.tcq.filter fun c => !(c.e == e && c.d == d)) ∧
      (t.msc = if e = s.cfg.mscIn ∧ d = .inp ∧ s.msc.cswArmed = true then { s.msc with cswArmed := false } else s.msc) ∧
      SameDirsBut s t e d ∧ SameMemory s t ∧
      t = { s with eps := t.eps, tcq := t.tcq, msc := t.msc, reply := some (.code .ok) } := by
  have hdir (e' d') : ((hostHalt (halted s e d) e d).answer (.code .ok)).epDir e' d' = (halted s e d).epDir e' d' := by
    rw [State.answer_epDir, hostHalt_epDir]
  refine ⟨_, exec_setHalt_halts he h0 hc hb hh, ?_, ?_, ?_, fun e' d' h => ?_, fun a => ?_, ?_⟩
  · exact (Halts.congr (t := halted s e d) rfl rfl (hdir e d)).2 (halted_halts s e d)
  · rw [hostHalt_eq]; rfl
  · rw [hostHalt_eq]; rfl
  · rw [hdir, halted_epDir_ne _ _ _ h]
  · rw [hostHalt_eq]; rfl
  · rw [hostHalt_eq]; rfl

/-- Settles O18: the checks of `SET_HALT` in their order, and `exec_setHalt_next`. -/
theorem setHaltHaltsDirection : Obligations.SetHaltHaltsDirection := by
  unfold Obligations.SetHaltHaltsDirection
  intro s e d
  dsimp only
  rw [← State.isMsc_iff, ← State.inDataPhase_iff]
  refine ⟨fun n hn => (exec_setHalt_eq s n d).trans (onEndpoint_rejects fun i hi => ?_),
    fun he h0 hc => exec_setHalt_rejected ?_ (by decide),
    fun he h0 hc hb => exec_setHalt_rejected ((setHaltResult_command he h0 hc).trans (if_pos hb)) (by decide),
    fun he h0 hc hb hh => ?_, fun he h0 hc hb hh => exec_setHalt_next he h0 hc hb hh⟩
  · have hr : setHaltResult s .command i d = .errArg := by
      obtain hn | rfl := hn
      · exact if_pos (hi ▸ hn)
      · obtain rfl : i = 0 := Fin.ext hi
        simp [setHaltResult]
    rw [setHaltIn, hr, if_neg (by decide)]
  · simp [setHaltResult, Nat.not_le.2 he, h0, State.gated_of h0 hc]
  · have hr : setHaltResult s .command e d = .ok := (setHaltResult_command he h0 hc).trans (if_neg hb)
    rw [exec_setHalt, setHaltIn_ok hr, setHaltStore_eq, if_pos hh, hr]
    rfl

end Sys2Proof.Machine
end

section
/-! # What the bulk operations leave (43_msc_bot.md R191, R196, R201, R208)

`arm_out`, the CSW, a packet of the read path, and the stall of a bulk endpoint: what each does to the endpoint table
and to buffer memory, told of the state before the rule's other registers were written (`SameEps`). -/

namespace Sys2Proof.Machine

/-! ## States that agree on the endpoint table -/

/-- The two states have one configuration and one endpoint table. -/
structure SameEps (s u : State) : Prop where
  cfg : u.cfg = s.cfg
  eps : u.eps = s.eps
  configurationValue : u.dev.configurationValue = s.dev.configurationValue

theorem SameEps.rfl {s : State} : SameEps s s := ⟨Eq.refl _, Eq.refl _, Eq.refl _⟩

section
variable {s t u v : State} {e : EpNum} {d : Dir} {a n : Nat}

theorem epDir_congr (h : u.eps = s.eps) (e : EpNum) (d : Dir) : u.epDir e d = s.epDir e d := by
  rw [State.epDir_eq, State.epDir_eq, h]

theorem SameEps.epDir (h : SameEps s u) (e : EpNum) (d : Dir) : u.epDir e d = s.epDir e d := epDir_congr h.eps e d

/-- The two states have one configuration, and agree on one endpoint direction. -/
structure SameDir (s u : State) (e : EpNum) (d : Dir) : Prop where
  cfg : u.cfg = s.cfg
  epDir : u.epDir e d = s.epDir e d

theorem SameEps.dir (h : SameEps s u) (e : EpNum) (d : Dir) : SameDir s u e d := ⟨h.cfg, h.epDir e d⟩

theorem SameDir.clear (h : SameDir s u e d) : u.clear e d ↔ s.clear e d := State.clear_congr h.cfg h.epDir

theorem SameDir.nextBuf (h : SameDir s u e d) : u.nextBuf e d = s.nextBuf e d := State.nextBuf_congr h.cfg h.epDir

theorem SameDir.trans (h : SameDir s u e d) (h' : SameDir u v e d) : SameDir s v e d :=
  ⟨h'.cfg.trans h.cfg, h'.epDir.trans h.epDir⟩

theorem SameEps.dirsBut (h : SameEps s u) (ht : SameDirsBut u t e d) : SameDirsBut s t e d :=
  fun e' d' hne => (ht e' d' hne).trans (h.epDir e' d')

theorem SameDirsBut.aboveZero (h : SameDirsBut s t 0 d) : SameAboveZero s t := fun e' d' h0 => h e' d' (.inl h0)

theorem SameDirsBut.of_isMsc (h : SameDirsBut s t e d) (hm : s.isMsc e d = true) {e' : EpNum} {d' : Dir}
    (hm' : s.isMsc e' d' = false) : t.epDir e' d' = s.epDir e' d' := by
  obtain ⟨rfl, rfl⟩ | hne := endDir_or e e' d d'
  · simp [hm] at hm'
  · exact h e' d' hne

/-- An arm of a clear direction, seen from a state with the same direction. -/
theorem offers_of_armIn (h : SameDir s v e d) (ht : t.eps = (armIn v e d a n).eps) (hc : s.clear e d)
    (hg : v.gated e = false) (hn : n ≤ s.cfg.mps e d) : Offers s t e d a n :=
  (Offers.congr h.cfg.symm h.epDir.symm (epDir_congr ht e d)).2 (armIn_offers a (h.clear.2 hc) hg (by rwa [h.cfg]))

theorem sameDirsBut_of_armIn (h : v.eps = u.eps) (ht : t.eps = (armIn v e d a n).eps) : SameDirsBut u t e d :=
  fun e' d' hne => by rw [epDir_congr ht, armIn_epDir_ne _ _ _ _ _ hne, epDir_congr h]

theorem answer_congr (h : t = u) (r : Reply) : t.answer r = u.answer r := by rw [h]

theorem sameMemory_of (h : t.mem = s.mem) : SameMemory s t := fun _ => congrArg (Memory.read · _) h

theorem bytes_congr (h : u.mem = s.mem) (a n : Nat) : u.bytes a n = s.bytes a n := congrArg (Memory.readBytes · a n) h

theorem bytes_of_stored (hm : s.memoryOk) {bs : List Byte} (ht : t.mem = Memory.writeBytes s.mem a bs) :
    t.bytes a bs.length = bs := (bytes_congr (s := s.setMem _) ht ..).trans (store_bytes hm a bs)

theorem sameOutside_of_stored (hm : s.memoryOk) {bs : List Byte} (ht : t.mem = Memory.writeBytes s.mem a bs) :
    SameMemoryOutside s t a bs.length :=
  fun x hx => (congrArg (Memory.read · x) ht).trans (store_sameOutside hm a bs x hx)

theorem copied_of_stored (hm : s.memoryOk) {src : Nat} (ht : t.mem = Memory.writeBytes s.mem a (s.bytes src n)) :
    Copied s t a src n := fun i hi => (congrArg (Memory.read · (a + i)) ht).trans (copy_copied hm a src n i hi)

theorem sameOutside_of_copied (hm : s.memoryOk) {src : Nat} (ht : t.mem = Memory.writeBytes s.mem a (s.bytes src n)) :
    SameMemoryOutside s t a n := by
  have := sameOutside_of_stored hm ht
  rwa [State.length_bytes] at this

end

/-! ## Statements about memory depend on the memory only -/

section
variable {s s' t t' : State} {a b n : Nat}

theorem State.byte_congr (h : s'.mem = s.mem) (x : Nat) : s'.byte x = s.byte x := congrArg (Memory.read · x) h

theorem Copied.congr (hs : s.mem = s'.mem) (ht : t'.mem = t.mem) (h : Copied s t a b n) : Copied s' t' a b n :=
  fun i hi => (State.byte_congr ht _).trans ((h i hi).trans (State.byte_congr hs _))

theorem SameMemoryOutside.congr (hs : s.mem = s'.mem) (ht : t'.mem = t.mem) (h : SameMemoryOutside s t a n) :
    SameMemoryOutside s' t' a n := fun x hx => (State.byte_congr ht _).trans ((h x hx).trans (State.byte_congr hs _))

end

/-! ## What a recorded answer leaves alone -/

section
variable {s t : State} {e : EpNum} {d : Dir} {a b n : Nat} (r : Reply)

theorem Offers.answer (h : Offers s t e d a n) : Offers s (t.answer r) e d a n :=
  (Offers.congr rfl rfl (State.answer_epDir ..)).2 h

theorem Halts.answer (h : Halts s t e d) : Halts s (t.answer r) e d := (Halts.congr rfl rfl (State.answer_epDir ..)).2 h

theorem SameDirsBut.answer (h : SameDirsBut s t e d) : SameDirsBut s (t.answer r) e d :=
  fun e d hne => (State.answer_epDir ..).trans (h e d hne)

theorem SameAboveZero.answer (h : SameAboveZero s t) : SameAboveZero s (t.answer r) :=
  fun e d h0 => (State.answer_epDir ..).trans (h e d h0)

theorem SameMemory.answer (h : SameMemory s t) : SameMemory s (t.answer r) := h

theorem SameMemoryOutside.answer (h : SameMemoryOutside s t a n) : SameMemoryOutside s (t.answer r) a n := h

theorem Copied.answer (h : Copied s t a b n) : Copied s (t.answer r) a b n := h

end

/-! ## `arm_out()` -/

section
variable {s : State}

theorem armOut_of_clear (h : s.clear s.cfg.mscOut .out) : armOut s =
    armIn s s.cfg.mscOut .out (s.nextBuf s.cfg.mscOut .out) (s.cfg.mps s.cfg.mscOut .out) := if_pos h

theorem armOut_of_not_clear (h : ¬s.clear s.cfg.mscOut .out) : armOut s = s := if_neg h

theorem armOut_offers (hc : s.dev.configurationValue ≠ 0) (h : s.clear s.cfg.mscOut .out) :
    Offers s (armOut s) s.cfg.mscOut .out (s.nextBuf s.cfg.mscOut .out) (s.cfg.mps s.cfg.mscOut .out) := by
  rw [armOut_of_clear h]
  exact armIn_offers _ h (State.gated_configured hc _) le_rfl

theorem armOut_dirsBut (s : State) : SameDirsBut s (armOut s) s.cfg.mscOut .out := by
  intro e d hne
  by_cases h : s.clear s.cfg.mscOut .out
  · rw [armOut_of_clear h, armIn_epDir_ne _ _ _ _ _ hne]
  · rw [armOut_of_not_clear h]

theorem armOut_epDir_mscIn (s : State) : (armOut s).epDir s.cfg.mscIn .inp = s.epDir s.cfg.mscIn .inp :=
  armOut_dirsBut s _ _ (.inr (by simp))

end

/-! ## The CSW -/

section
variable {s u : State}

theorem cswOffered_eps (u : State) : (cswOffered u).eps =
    (armIn (cswStored u) u.cfg.mscIn .inp (u.nextBuf u.cfg.mscIn .inp) 13).eps := rfl

/-- What `SEND_CSW` makes of `u`, told of a state `s` with the same direction and the same memory. -/
structure CswGoesOut (s u t : State) (b : List Byte) : Prop where
  bytes : t.bytes (s.nextBuf s.cfg.mscIn .inp) 13 = b
  outside : SameMemoryOutside s t (s.nextBuf s.cfg.mscIn .inp) 13
  offers : Offers s t s.cfg.mscIn .inp (s.nextBuf s.cfg.mscIn .inp) 13
  dirs : SameDirsBut u t s.cfg.mscIn .inp
  frame : t = { u with eps := t.eps, mem := t.mem, msc := { u.msc with csw := b, state := .csw, cswArmed := true } }

theorem cswOffered_goesOut (h : SameDir s u s.cfg.mscIn .inp) (hmem : u.mem = s.mem) (hwf : s.cfg.wf = true)
    (hm : s.memoryOk) (hc : u.dev.configurationValue ≠ 0) (hcl : s.clear s.cfg.mscIn .inp) :
    CswGoesOut s u (cswOffered u) u.cswDue := by
  have hst : (cswOffered u).mem = Memory.writeBytes s.mem (s.nextBuf s.cfg.mscIn .inp) u.cswDue := by
    rw [cswOffered_frame, hmem, h.cfg, h.nextBuf]
  have heps : (cswOffered u).eps =
      (armIn (cswStored u) s.cfg.mscIn .inp (s.nextBuf s.cfg.mscIn .inp) 13).eps := by
    rw [cswOffered_eps, h.cfg, h.nextBuf]
  have hsame : SameDir s (cswStored u) s.cfg.mscIn .inp := h.trans ⟨rfl, epDir_congr rfl _ _⟩
  exact ⟨bytes_of_stored hm hst, sameOutside_of_stored hm hst,
    offers_of_armIn hsame heps hcl (State.gated_configured (s := cswStored u) hc _) (Config.wf_bulkSizes hwf).2,
    sameDirsBut_of_armIn (v := cswStored u) rfl heps, by rw [cswOffered_frame]⟩

/-- `SEND_CSW` with bulk IN clear. -/
theorem sendCsw_goesOut (h : SameDir s u s.cfg.mscIn .inp) (hmem : u.mem = s.mem) (hwf : s.cfg.wf = true)
    (hm : s.memoryOk) (hc : u.dev.configurationValue ≠ 0) (hcl : s.clear s.cfg.mscIn .inp)
    (hsp : s.nextBuf s.cfg.mscIn .inp + 13 ≤ s.cfg.memSize) (ha : u.msc.cswArmed = false) (hi : u.msc.inArmed = false) :
    sendCsw u = .next (cswOffered u) ∧
      CswGoesOut s u (cswOffered u) u.cswDue := by
  refine ⟨sendCsw_offers ha hi ?_ ?_, cswOffered_goesOut h hmem hwf hm hc hcl⟩
  · rw [h.cfg, h.epDir]; exact hcl.1
  · rw [h.cfg, h.nextBuf]; exact hsp

theorem CswGoesOut.msc {t : State} {b : List Byte} (h : CswGoesOut s u t b) :
    t.msc = { u.msc with csw := b, state := .csw, cswArmed := true } := by rw [h.frame]

theorem CswGoesOut.sends {t : State} {b : List Byte} (h : CswGoesOut s u t b) {r : BitVec 32} {st : Byte}
    (hb : b = cswBytes s.msc.currentTag r st) : SendsCsw s t r st := by
  refine ⟨?_, ?_, h.outside, h.offers, ?_, ?_⟩
  · rw [h.msc, hb]
  · rw [h.msc]; exact h.bytes
  · rw [h.msc]
  · rw [h.msc]

end

/-! ## A packet of the read path -/

section
variable {s u : State}

/-- What `pump_in` makes of `u`, told of a state `s` with the same direction and the same memory. -/
structure PacketGoesOut (s u t : State) : Prop where
  mem : t.mem = Memory.writeBytes s.mem (s.nextBuf s.cfg.mscIn .inp) u.packet
  bytes : t.bytes (s.nextBuf s.cfg.mscIn .inp) u.packetLen = u.packet
  outside : SameMemoryOutside s t (s.nextBuf s.cfg.mscIn .inp) u.packetLen
  offers : Offers s t s.cfg.mscIn .inp (s.nextBuf s.cfg.mscIn .inp) u.packetLen
  dirs : SameDirsBut u t s.cfg.mscIn .inp
  frame : t = { u with eps := t.eps, mem := t.mem, msc := u.msc.packetSent u.packetLen }

theorem packetSent_goesOut (h : SameDir s u s.cfg.mscIn .inp) (hmem : u.mem = s.mem) (hm : s.memoryOk)
    (hc : u.dev.configurationValue ≠ 0) (hcl : s.clear s.cfg.mscIn .inp) (hlen : u.packet.length = u.packetLen) :
    PacketGoesOut s u (packetSent u) := by
  have hst : (packetSent u).mem = Memory.writeBytes s.mem (s.nextBuf s.cfg.mscIn .inp) u.packet := by
    have hbuf : u.nextBuf u.cfg.mscIn .inp = s.nextBuf s.cfg.mscIn .inp := by rw [h.cfg, h.nextBuf]
    rw [← hbuf, packetSent_frame, ← hmem]
    rfl
  have heps : (packetSent u).eps =
      (armIn (packetStored u) s.cfg.mscIn .inp (s.nextBuf s.cfg.mscIn .inp) u.packetLen).eps := by
    rw [← h.nextBuf, ← h.cfg]
    rfl
  have hsame : SameDir s (packetStored u) s.cfg.mscIn .inp := h.trans ⟨rfl, epDir_congr rfl _ _⟩
  have hn : u.packetLen ≤ s.cfg.mps s.cfg.mscIn .inp := by rw [State.packetLen, h.cfg]; exact Nat.min_le_right ..
  exact ⟨hst, hlen ▸ bytes_of_stored hm hst, hlen ▸ sameOutside_of_stored hm hst,
    offers_of_armIn hsame heps hcl (State.gated_configured (s := packetStored u) hc _) hn,
    sameDirsBut_of_armIn (v := packetStored u) rfl heps,
    by rw [packetSent_frame]⟩

theorem PacketGoesOut.msc {t : State} (h : PacketGoesOut s u t) : t.msc = u.msc.packetSent u.packetLen := by
  rw [h.frame]

theorem packet_driver (hsrc : u.msc.txSrc = .driver) : u.packet = u.bytes u.msc.txPtr u.packetLen := by
  rw [State.packet, hsrc]

theorem packet_internal (hsrc : u.msc.txSrc = .internal) :
    u.packet = (u.msc.resp.drop u.msc.txPtr).take u.packetLen := by rw [State.packet, hsrc]

theorem length_packet_internal (hsrc : u.msc.txSrc = .internal) (h : u.msc.txPtr + u.packetLen ≤ u.msc.resp.length) :
    u.packet.length = u.packetLen := by
  rw [packet_internal hsrc, List.length_take, List.length_drop]
  omega

theorem pumpIn_driver (hsrc : u.msc.txSrc = .driver) (h1 : u.msc.txPtr + u.packetLen ≤ u.cfg.memSize)
    (h2 : u.nextBuf u.cfg.mscIn .inp + u.packetLen ≤ u.cfg.memSize) : pumpIn u = .next (packetSent u) := by
  refine pumpIn_of_stored ?_
  rw [pumpCopy, hsrc, packetStored, packet_driver hsrc]
  exact copyMem_ok h1 h2

theorem pumpIn_internal (hsrc : u.msc.txSrc = .internal) (h1 : u.msc.txPtr + u.packetLen ≤ u.msc.resp.length)
    (h2 : u.nextBuf u.cfg.mscIn .inp + u.packetLen ≤ u.cfg.memSize) : pumpIn u = .next (packetSent u) := by
  have hlen := length_packet_internal hsrc h1
  refine pumpIn_of_stored ?_
  rw [packet_internal hsrc] at hlen
  rw [pumpCopy, hsrc, packetStored, packet_internal hsrc]
  exact writeMem_ok (by rw [hlen]; exact h2)

end

/-! ## The stall of a bulk endpoint -/

/-- One bulk direction halted by the transport, which goes to `STALL`. -/
structure Stalls (s t : State) (d : Dir) (m : Msc) : Prop where
  halts : Halts s t (s.bulkEp d) d
  tcq : t.tcq = s.tcq.filter fun c => !(c.e == s.bulkEp d && c.d == d)
  dirs : SameDirsBut s t (s.bulkEp d) d
  memory : SameMemory s t
  msc : t.msc = { m with state := .stall }

theorem bulkEp_inTable {c : Config} (hwf : c.wf = true) (s : State) (hs : s.cfg = c) (d : Dir) :
    s.bulkEp d ≠ 0 ∧ (s.bulkEp d).val < c.nEp := by
  subst hs
  cases d
  · exact Config.wf_mscOut hwf
  · exact Config.wf_mscIn hwf

section
variable {s u : State} {d : Dir}

theorem SameEps.bulkEp (h : SameEps s u) (d : Dir) : u.bulkEp d = s.bulkEp d := by
  cases d <;> simp [State.bulkEp, h.cfg]

/-- `stall(dir)` on a direction not yet halted. -/
theorem stallMsc_of_free (hwf : s.cfg.wf = true) (hc : s.dev.configurationValue ≠ 0)
    (hh : (s.epDir (s.bulkEp d) d).halted = false) :
    stallMsc s d = (halted s (s.bulkEp d) d).setMsc { s.msc with state := .stall } := by
  obtain ⟨h0, hn⟩ := bulkEp_inTable hwf s rfl d
  rw [stallMsc_eq, setHaltIn_msc h0 hn (State.configured_of hc) hh]

theorem stallMsc_stalls (h : SameEps s u) (hmem : u.mem = s.mem) (hq : u.tcq = s.tcq) (hwf : s.cfg.wf = true)
    (hc : s.dev.configurationValue ≠ 0) (hh : (s.epDir (s.bulkEp d) d).halted = false) :
    Stalls s (stallMsc u d) d u.msc ∧
      stallMsc u d = { u with eps := (stallMsc u d).eps, tcq := (stallMsc u d).tcq, msc := (stallMsc u d).msc } := by
  have heq := stallMsc_of_free (s := u) (d := d) (h.cfg ▸ hwf) (h.configurationValue ▸ hc)
    (by rw [h.bulkEp, h.epDir]; exact hh)
  rw [h.bulkEp] at heq
  have hdir (e' d') : (stallMsc u d).epDir e' d' = (halted u (s.bulkEp d) d).epDir e' d' := by
    rw [heq, State.setMsc_epDir]
  refine ⟨⟨?_, ?_, fun e' d' hne => ?_, ?_, ?_⟩, ?_⟩
  · exact (Halts.congr h.cfg.symm (h.epDir ..).symm (hdir ..)).2 (halted_halts u (s.bulkEp d) d)
  · rw [heq, ← hq]; rfl
  · rw [hdir, halted_epDir_ne _ _ _ hne, h.epDir]
  · exact sameMemory_of (by rw [heq, ← hmem]; rfl)
  · rw [heq]; rfl
  · rw [heq]; rfl

end

end Sys2Proof.Machine
end

section
/-! # The end of a halt (40_arbiter.md R110; 43_msc_bot.md R191, R194)

`CLEAR_HALT`, `MSC_HALT_CLEARED` and the `CSW` row (O19, O20, O52). -/

namespace Sys2Proof.Machine

/-! ## The released direction -/

section
variable {s t u : State} {e : EpNum} {d : Dir} {a n : Nat}

theorem clearHaltStore_epDir (s : State) (e : EpNum) (d : Dir) : (clearHaltStore s e d).epDir e d =
    { (s.epDir e d).setBd (s.hw e d) { (s.epDir e d).bd (s.hw e d) with stall := false, owner := .fw } with
      halted := false, nextToggle := false } := State.onDir_epDir_same ..

theorem clearHaltStore_frame (s : State) (e : EpNum) (d : Dir) :
    clearHaltStore s e d = { s with eps := (clearHaltStore s e d).eps } := rfl

theorem clearHaltStore_dirsBut (s : State) (e : EpNum) (d : Dir) : SameDirsBut s (clearHaltStore s e d) e d :=
  fun _ _ h => State.onDir_epDir_ne _ _ _ _ h

theorem clearHaltStore_releases (s : State) (e : EpNum) (d : Dir) : Releases s (clearHaltStore s e d) e d := by
  unfold Releases
  rw [clearHaltStore_epDir]
  cases s.hw e d <;> refine ⟨rfl, rfl, rfl, rfl, rfl, rfl, rfl, ?_, ?_⟩ <;> intro j <;> cases j <;> rfl

theorem Releases.congr (ht : u.epDir e d = t.epDir e d) (h : Releases s t e d) : Releases s u e d := by
  unfold Releases at *
  rwa [ht]

/-- A halted direction as `SET_HALT` leaves it is clear once it is released. -/
theorem Releases.clear (h : s.haltedClean e d) (hr : Releases s u e d) : u.clear e d := by
  obtain ⟨-, hhw, -, hother, hun⟩ := h
  obtain ⟨hk, hnk, hh, -, -, -, -, hu, -⟩ := hr
  rw [hhw] at hk hnk
  refine ⟨hh, (State.quiet_iff ..).2 fun j _ => ⟨?_, by rw [hu, hun]⟩⟩
  obtain rfl | rfl : j = s.active e d ∨ j = !s.active e d := by cases j <;> cases s.active e d <;> simp
  · rw [hk]
  · rw [hnk, hother]

theorem Releases.active (hr : Releases s u e d) (hc : u.cfg = s.cfg) : u.active e d = s.active e d := by
  obtain ⟨-, -, -, -, ha, -⟩ := hr
  simp [State.active, hc, ha]

theorem Releases.nextBuf (hr : Releases s u e d) (hc : u.cfg = s.cfg) : u.nextBuf e d = s.nextBuf e d := by
  rw [State.nextBuf, State.nextBuf, hr.active hc, hc]

theorem ReleasesThenOffers.congr (ht : u.epDir e d = t.epDir e d) (h : ReleasesThenOffers s t e d a n) :
    ReleasesThenOffers s u e d a n := by
  unfold ReleasesThenOffers at *
  rwa [ht]

/-- Released, then offered. -/
theorem Releases.offers (h : s.haltedClean e d) (hr : Releases s u e d) (hc : u.cfg = s.cfg)
    (ho : Offers u t e d a n) : ReleasesThenOffers s t e d a n := by
  have ha := hr.active hc
  obtain ⟨-, hhw, -, -, -⟩ := h
  obtain ⟨hk, hnk, hh, htog, hact, hhwi, hrd, hu, hre⟩ := hr
  obtain ⟨o1, o2, o3, o4, o5, o6, o7, o8, o9, o10, o11⟩ := ho
  rw [ha] at o1 o2 o9 o10 o11
  rw [hhw] at hnk
  refine ⟨by rw [o1, htog], by rw [o2, hnk], o3.trans hh, o4.trans htog, o5.trans hhwi, o6.trans hrd, fun j => ?_, o9,
    by rw [o10, hre], by rw [o11, hc, hact]⟩
  rw [← hu]
  cases j
  · exact o7
  · exact o8

end

/-! ## `MSC_HALT_CLEARED` -/

section
variable {s : State}

theorem reoffered_frame (s : State) (d : Dir) : reoffered s d = { s with eps := (reoffered s d).eps } := by
  cases d
  · exact armOut_frame s
  · rfl

theorem reoffered_sameDir (s : State) (d : Dir) : SameDir s (reoffered s d) s.cfg.mscIn .inp := by
  cases d
  · exact ⟨by rw [reoffered_frame], armOut_epDir_mscIn s⟩
  · exact ⟨rfl, rfl⟩

/-- The CSW waits to be sent, and bulk IN is not halted. -/
def State.cswWaits (s : State) : Prop :=
  (s.msc.state = .stall ∨ s.msc.state = .csw) ∧ (s.epDir s.cfg.mscIn .inp).halted = false ∧ s.msc.cswArmed = false

theorem haltCleared_sends (h : s.cswWaits) (d : Dir) : haltCleared s d = sendCsw (reoffered s d) := by
  have hdir := reoffered_sameDir s d
  rw [haltCleared_eq, if_pos]
  rw [reoffered_msc, hdir.cfg, hdir.epDir]
  exact h

theorem haltCleared_reoffers (h : ¬s.cswWaits) (d : Dir) : haltCleared s d = .next (reoffered s d) := by
  have hdir := reoffered_sameDir s d
  rw [haltCleared_eq, if_neg]
  rw [reoffered_msc, hdir.cfg, hdir.epDir]
  exact h

theorem reoffered_cswDue (s : State) (d : Dir) : (reoffered s d).cswDue = s.cswDue := by
  rw [State.cswDue, reoffered_msc]; rfl

/-- A CSW that waits is sent where bulk IN is clear. -/
theorem haltCleared_goesOut {u : State} (h : SameDir s u s.cfg.mscIn .inp) (hmem : u.mem = s.mem) (hw : u.cswWaits)
    (hwf : s.cfg.wf = true) (hm : s.memoryOk) (hc : u.dev.configurationValue ≠ 0) (hcl : s.clear s.cfg.mscIn .inp)
    (hsp : s.nextBuf s.cfg.mscIn .inp + 13 ≤ s.cfg.memSize) (hi : u.msc.inArmed = false) (d : Dir) :
    ∃ t, haltCleared u d = .next t ∧ CswGoesOut s (reoffered u d) t u.cswDue := by
  have hdir : SameDir u (reoffered u d) s.cfg.mscIn .inp := by
    have := reoffered_sameDir u d
    rwa [h.cfg] at this
  have hmem' : (reoffered u d).mem = s.mem := by rw [reoffered_frame, hmem]
  obtain ⟨hnext, hout⟩ := sendCsw_goesOut (h.trans hdir) hmem' hwf hm (by rw [reoffered_frame]; exact hc) hcl hsp
    (by rw [reoffered_msc]; exact hw.2.2) (by rw [reoffered_msc]; exact hi)
  rw [reoffered_cswDue] at hout
  exact ⟨_, (haltCleared_sends hw d).trans hnext, hout⟩

end

/-! ## `CLEAR_HALT` -/

section
variable {s : State} {e : EpNum} {d : Dir}

theorem exec_clearHalt_eq (s : State) (n : Nat) (d : Dir) : exec (.clearHalt n d) s = onEndpoint n s fun e =>
    if clearHaltResult s e = .ok then answerOk (clearHaltBody s e d) else answerCode s (clearHaltResult s e) := rfl

theorem clearHaltResult_ok (he : e.val < s.cfg.nEp) (h : e = 0 ∨ s.dev.configurationValue ≠ 0) :
    clearHaltResult s e = .ok := by
  simp [clearHaltResult, Nat.not_le.2 he, State.not_gated_of h]

theorem exec_clearHalt (he : e.val < s.cfg.nEp) (h : e = 0 ∨ s.dev.configurationValue ≠ 0) :
    exec (.clearHalt e d) s = answerOk (clearHaltBody s e d) := by
  rw [exec_clearHalt_eq, onEndpoint_val, if_pos (clearHaltResult_ok he h)]

/-- `CLEAR_HALT` has nothing to do. -/
theorem clearHaltBody_keeps (h : (s.epDir e d).halted = false ∨ s.isMsc e d = true ∧ s.msc.state = .nrr) :
    clearHaltBody s e d = .next s := by
  unfold clearHaltBody
  split
  · rfl
  · next hh => rw [if_pos (h.resolve_left hh)]

theorem clearHaltBody_releases (hh : (s.epDir e d).halted = true) (hn : ¬(s.isMsc e d = true ∧ s.msc.state = .nrr)) :
    clearHaltBody s e d =
      if s.isMsc e d then haltCleared (clearHaltStore s e d) d else .next (clearHaltStore s e d) := by
  unfold clearHaltBody
  rw [if_neg (by simp [hh]), if_neg hn]
  rfl

theorem exec_clearHalt_next (he : e.val < s.cfg.nEp) (h : e = 0 ∨ s.dev.configurationValue ≠ 0) {u : State}
    (hb : clearHaltBody s e d = .next u) : exec (.clearHalt e d) s = .next (u.answer (.code .ok)) := by
  rw [exec_clearHalt he h, hb]
  rfl

end

/-- Bulk OUT released, and offered again. -/
def mscOutReleased (s : State) : State := armOut (clearHaltStore s s.cfg.mscOut .out)

theorem mscOutReleased_frame (s : State) : mscOutReleased s = { s with eps := (mscOutReleased s).eps } := by
  unfold mscOutReleased
  rw [armOut_frame]
  rfl

theorem mscOutReleased_dirsBut (s : State) : SameDirsBut s (mscOutReleased s) s.cfg.mscOut .out := by
  intro e d hne
  exact (armOut_dirsBut (clearHaltStore s s.cfg.mscOut .out) e d hne).trans (clearHaltStore_dirsBut s _ _ e d hne)

theorem mscOutReleased_offers {s : State} (hc : s.dev.configurationValue ≠ 0) (h : s.haltedClean s.cfg.mscOut .out) :
    ReleasesThenOffers s (mscOutReleased s) s.cfg.mscOut .out (s.nextBuf s.cfg.mscOut .out)
      (s.cfg.mps s.cfg.mscOut .out) := by
  have hrel := clearHaltStore_releases s s.cfg.mscOut .out
  rw [← hrel.nextBuf rfl]
  exact hrel.offers h rfl (armOut_offers (s := clearHaltStore s s.cfg.mscOut .out) hc (hrel.clear h))

/-- Settles O19: the checks; then the direction is released, and bulk OUT, clear once more, is offered. -/
theorem clearHaltReleasesDirection : Obligations.ClearHaltReleasesDirection := by
  unfold Obligations.ClearHaltReleasesDirection
  intro s e d
  dsimp only
  refine ⟨fun n hn => (exec_clearHalt_eq s n d).trans (onEndpoint_rejects fun i hi => ?_), fun he h0 hc => ?_,
    fun he hop h => exec_clearHalt_next he hop (clearHaltBody_keeps h), fun he hop hh h => ?_, ?_⟩
  · have hr : clearHaltResult s i = .errArg := if_pos (hi ▸ hn)
    rw [hr, if_neg (by decide)]
  · have hr : clearHaltResult s e = .errNotConfigured := by
      simp [clearHaltResult, Nat.not_le.2 he, State.gated_of h0 hc]
    rw [exec_clearHalt_eq, onEndpoint_val, hr, if_neg (by decide)]
    rfl
  · have hbody : clearHaltBody s e d = .next (clearHaltStore s e d) := by
      obtain hm | ⟨rfl, rfl, hs⟩ := h
      · rw [clearHaltBody_releases hh (by simp [hm]), if_neg (by simp [hm])]
      · rw [clearHaltBody_releases hh (by simp [hs]), if_pos (isMsc_mscIn s)]
        refine haltCleared_reoffers (fun hw => ?_) .inp
        have := hw.1
        simp [clearHaltStore, hs] at this
    refine ⟨_, exec_clearHalt_next he hop hbody, (clearHaltStore_releases s e d).congr (State.answer_epDir ..),
      fun e' d' hne => ?_, fun _ => rfl, rfl⟩
    rw [State.answer_epDir, clearHaltStore_dirsBut s e d e' d' hne]
  · rintro hwf hc rfl rfl hs hcl
    have hbody : clearHaltBody s s.cfg.mscOut .out = .next (mscOutReleased s) := by
      rw [clearHaltBody_releases hcl.1 (by simp [hs]), if_pos (isMsc_mscOut s)]
      refine haltCleared_reoffers (fun hw => ?_) .out
      have := hw.1
      simp [clearHaltStore, hs] at this
    refine ⟨_, exec_clearHalt_next (Config.wf_mscOut hwf).2 (.inr hc) hbody, ?_, fun e' d' hne => ?_, ?_, ?_⟩
    · exact (mscOutReleased_offers hc hcl).congr (State.answer_epDir ..)
    · rw [State.answer_epDir, mscOutReleased_dirsBut s e' d' hne]
    · exact sameMemory_of (by rw [mscOutReleased_frame]; rfl)
    · rw [mscOutReleased_frame]; rfl

theorem exec_clearHalt_msc {s u : State} {d : Dir} (hwf : s.cfg.wf = true) (hc : s.dev.configurationValue ≠ 0)
    (hh : (s.epDir (s.bulkEp d) d).halted = true) (hn : s.msc.state ≠ .nrr)
    (hb : haltCleared (clearHaltStore s (s.bulkEp d) d) d = .next u) :
    exec (.clearHalt (s.bulkEp d) d) s = .next (u.answer (.code .ok)) := by
  have hm : s.isMsc (s.bulkEp d) d = true := by cases d <;> simp [State.bulkEp]
  refine exec_clearHalt_next (bulkEp_inTable hwf s rfl d).2 (.inr hc) ?_
  rw [clearHaltBody_releases hh fun h => hn h.2, if_pos hm, hb]

/-- Settles O20: the released direction is clear, and the CSW that waited goes out. -/
theorem clearHaltReleasesCsw : Obligations.ClearHaltReleasesCsw := by
  unfold Obligations.ClearHaltReleasesCsw
  intro s hwf hm hc hst ha hi
  dsimp only
  have hnrr : s.msc.state ≠ .nrr := by
    intro h
    simp [h] at hst
  refine ⟨fun hcl hsp => ?_, fun hcl hin hsp => ?_, fun hcl hin => ?_⟩
  · have hrel := clearHaltStore_releases s s.cfg.mscIn .inp
    have hclear := hrel.clear hcl
    have hbuf := hrel.nextBuf rfl
    obtain ⟨t, hnext, hout⟩ := haltCleared_goesOut (s := clearHaltStore s s.cfg.mscIn .inp) ⟨rfl, rfl⟩ rfl
      ⟨hst, hclear.1, ha⟩ hwf hm hc hclear (hbuf ▸ hsp) hi .inp
    refine ⟨_, exec_clearHalt_msc (d := .inp) hwf hc hcl.1 hnrr hnext, ?_, ?_, ?_, fun e' d' hne => ?_, ?_⟩
    · rw [← hbuf]
      exact (hrel.offers hcl rfl hout.offers).congr (State.answer_epDir ..)
    · rw [← hbuf]
      exact hout.bytes
    · rw [← hbuf]
      exact hout.outside
    · rw [State.answer_epDir]
      exact (hout.dirs e' d' hne).trans (clearHaltStore_dirsBut s _ _ e' d' hne)
    · exact answer_congr hout.frame (.code .ok)
  · have hdir : SameDir s (clearHaltStore s s.cfg.mscOut .out) s.cfg.mscIn .inp :=
      ⟨rfl, clearHaltStore_dirsBut s _ _ _ _ (.inr (by simp))⟩
    obtain ⟨t, hnext, hout⟩ := haltCleared_goesOut hdir rfl ⟨hst, hdir.epDir ▸ hin.1, ha⟩ hwf hm hc hin hsp hi .out
    have hdirs : SameDirsBut (mscOutReleased s) t s.cfg.mscIn .inp := hout.dirs
    refine ⟨_, exec_clearHalt_msc (d := .out) hwf hc hcl.1 hnrr hnext, ?_, ?_, hout.bytes, hout.outside,
      fun e d hne => ?_, ?_⟩
    · refine (mscOutReleased_offers hc hcl).congr ?_
      rw [State.answer_epDir, hdirs _ _ (.inr (by simp))]
    · exact (Offers.congr rfl rfl (State.answer_epDir ..)).2 hout.offers
    · have hin' : e ≠ s.cfg.mscIn ∨ d ≠ .inp := by cases d <;> simp_all
      have hout' : e ≠ s.cfg.mscOut ∨ d ≠ .out := by cases d <;> simp_all
      rw [State.answer_epDir, hdirs _ _ hin', mscOutReleased_dirsBut s _ _ hout']
    · have hframe := hout.frame
      rw [reoffered_frame] at hframe
      exact answer_congr hframe (.code .ok)
  · have hnot : ¬(clearHaltStore s s.cfg.mscOut .out).cswWaits := by
      rintro ⟨-, hh, -⟩
      have hdir := clearHaltStore_dirsBut s s.cfg.mscOut .out s.cfg.mscIn .inp (.inr (by simp))
      have hin' := (congrArg EpDir.halted hdir).trans hin
      exact absurd (hh.symm.trans hin') (by decide)
    refine ⟨_, exec_clearHalt_msc (d := .out) hwf hc hcl.1 hnrr (haltCleared_reoffers hnot .out), ?_,
      fun e' d' hne => ?_, ?_, ?_⟩
    · exact (mscOutReleased_offers hc hcl).congr (State.answer_epDir ..)
    · exact (State.answer_epDir ..).trans (mscOutReleased_dirsBut s e' d' hne)
    · have hmem : (mscOutReleased s).mem = s.mem := by rw [mscOutReleased_frame]
      exact sameMemory_of hmem
    · exact answer_congr (mscOutReleased_frame s) (.code .ok)

/-! ## `MSC_HALT_CLEARED` and `CSW` given by themselves -/

section
variable {s u : State} {d : Dir}

theorem exec_mscHaltCleared_eq (hc : s.dev.configurationValue ≠ 0) : exec (.mscHaltCleared d) s =
    if s.inDataPhase ∨ s.msc.state = .nrr then answerCode s .errState else answerOk (haltCleared s d) := by
  change (if !s.configured then _ else _) = _
  rw [State.configured_of hc, if_neg (by decide)]

theorem exec_mscHaltCleared (hc : s.dev.configurationValue ≠ 0)
    (hs : s.msc.state = .idle ∨ s.msc.state = .stall ∨ s.msc.state = .csw) :
    exec (.mscHaltCleared d) s = answerOk (haltCleared s d) := by
  have hbusy : ¬(s.inDataPhase = true ∨ s.msc.state = .nrr) := by
    rw [State.inDataPhase_iff]
    obtain hs | hs | hs := hs <;> simp [hs]
  rw [exec_mscHaltCleared_eq hc, if_neg hbusy]

theorem exec_mscHaltCleared_next (hc : s.dev.configurationValue ≠ 0)
    (hs : s.msc.state = .idle ∨ s.msc.state = .stall ∨ s.msc.state = .csw) (h : haltCleared s d = .next u) :
    exec (.mscHaltCleared d) s = .next (u.answer (.code .ok)) := by
  rw [exec_mscHaltCleared hc hs, h]
  rfl

theorem exec_csw_eq (hc : s.dev.configurationValue ≠ 0) (tag r : BitVec 32) (st : Byte) : exec (.csw tag r st) s =
    if s.msc.state ≠ .csw then answerCode s .errState
    else if tag ≠ s.msc.currentTag ∨ r ≠ BitVec.ofNat 32 s.msc.residue ∨ st ≠ s.msc.status then answerCode s .errArg
    else answerOk (sendCsw s) := by
  change (if !s.configured then _ else _) = _
  rw [State.configured_of hc, if_neg (by decide)]

/-- The row that names the contents the transport's registers give. -/
theorem exec_csw_own (hc : s.dev.configurationValue ≠ 0) (hs : s.msc.state = .csw) :
    exec (.csw s.msc.currentTag (BitVec.ofNat 32 s.msc.residue) s.msc.status) s = answerOk (sendCsw s) := by
  rw [exec_csw_eq hc, if_neg (not_not.2 hs), if_neg (by simp)]

/-- What an answered CSW leaves, where only endpoint records were written before it. -/
theorem CswGoesOut.answered {t : State} (h : CswGoesOut s u t s.cswDue) (hu : u = { s with eps := u.eps }) :
    SendsCsw s (t.answer (.code .ok)) (BitVec.ofNat 32 s.msc.residue) s.msc.status ∧
      t.msc = { s.msc with csw := t.msc.csw, state := .csw, cswArmed := true } ∧
      t.answer (.code .ok) = { s with eps := t.eps, mem := t.mem, msc := t.msc, reply := some (.code .ok) } := by
  obtain ⟨h1, h2, h3, hoff, h5, h6⟩ := h.sends rfl
  have hmsc : t.msc = { s.msc with csw := t.msc.csw, state := .csw, cswArmed := true } := by
    rw [h.frame, hu]
  refine ⟨⟨h1, h2, h3, (Offers.congr rfl rfl (State.answer_epDir ..)).2 hoff, h5, h6⟩, hmsc, ?_⟩
  have hframe := h.frame
  rw [hu] at hframe
  rw [h.msc, hu]
  exact answer_congr hframe (.code .ok)

end

/-- No bulk direction but these two. -/
theorem ne_of_not_isMsc {s : State} {e : EpNum} {d : Dir} (h : s.isMsc e d = false) :
    (e ≠ s.cfg.mscIn ∨ d ≠ .inp) ∧ (e ≠ s.cfg.mscOut ∨ d ≠ .out) := by
  cases d <;> simp_all

/-- `MSC_HALT_CLEARED` with a CSW that waits and can go out. -/
theorem exec_mscHaltCleared_sends {s : State} (hw : s.cswWaits) (hwf : s.cfg.wf = true) (hm : s.memoryOk)
    (hc : s.dev.configurationValue ≠ 0) (hcl : s.clear s.cfg.mscIn .inp)
    (hsp : s.nextBuf s.cfg.mscIn .inp + 13 ≤ s.cfg.memSize) (hi : s.msc.inArmed = false) (d : Dir) :
    ∃ t, exec (.mscHaltCleared d) s = .next (t.answer (.code .ok)) ∧ CswGoesOut s (reoffered s d) t s.cswDue := by
  obtain ⟨t, hnext, hout⟩ := haltCleared_goesOut ⟨rfl, rfl⟩ rfl hw hwf hm hc hcl hsp hi d
  exact ⟨t, exec_mscHaltCleared_next hc (.inr hw.1) hnext, hout⟩

/-- Settles O52: the checks of the two rows; `SEND_CSW` where a CSW waits and can go out, and else bulk OUT offered
again where it is clear. -/
theorem statusWrapperIsSentWhenDue : Obligations.StatusWrapperIsSentWhenDue := by
  unfold Obligations.StatusWrapperIsSentWhenDue
  refine ⟨fun s hc => ?_, fun s hwf hm hc => ?_⟩
  · have hconf : s.configured = false := by simp [hc]
    exact ⟨fun d => if_pos (by rw [hconf]; rfl), fun tag r st => if_pos (by rw [hconf]; rfl)⟩
  dsimp only
  refine ⟨fun ⟨ha, hi, hcl, hsp⟩ hs => ⟨?_, fun hout => ?_, fun hout => ?_⟩, fun ⟨ha, hi, hcl, hsp⟩ hs => ?_,
    fun hs ha hi hh => ?_, fun hs tag r st => ?_, fun hs tag r st hne => ?_, fun hs h => ?_, fun h => ?_,
    fun hs hh ha hi d => ?_, fun hs d => ?_⟩
  · obtain ⟨t, hnext, hgo⟩ := exec_mscHaltCleared_sends ⟨hs, hcl.1, ha⟩ hwf hm hc hcl hsp hi .inp
    exact ⟨_, hnext, hgo.answered rfl, fun e d hne => (State.answer_epDir ..).trans (hgo.dirs e d hne)⟩
  · obtain ⟨t, hnext, hgo⟩ := exec_mscHaltCleared_sends ⟨hs, hcl.1, ha⟩ hwf hm hc hcl hsp hi .out
    refine ⟨_, hnext, hgo.answered (reoffered_frame s .out), ?_, fun e d hne => ?_⟩
    · refine (Offers.congr rfl rfl ?_).2 (armOut_offers hc hout)
      exact (State.answer_epDir ..).trans (hgo.dirs _ _ (.inr (by simp)))
    · obtain ⟨hin, hon⟩ := ne_of_not_isMsc hne
      exact (State.answer_epDir ..).trans ((hgo.dirs _ _ hin).trans (armOut_dirsBut s _ _ hon))
  · obtain ⟨t, hnext, hgo⟩ := exec_mscHaltCleared_sends ⟨hs, hcl.1, ha⟩ hwf hm hc hcl hsp hi .out
    have hkeep : reoffered s .out = s := armOut_of_not_clear hout
    rw [hkeep] at hgo
    exact ⟨_, hnext, hgo.answered rfl, fun e d hne => (State.answer_epDir ..).trans (hgo.dirs e d hne)⟩
  · obtain ⟨hnext, hgo⟩ := sendCsw_goesOut (u := s) ⟨rfl, rfl⟩ rfl hwf hm hc hcl hsp ha hi
    refine ⟨_, ?_, hgo.answered rfl, fun e d hne => (State.answer_epDir ..).trans (hgo.dirs e d hne)⟩
    rw [exec_csw_own hc hs, hnext]
    rfl
  · rw [exec_csw_own hc hs, sendCsw_waits ha hi hh]
    simp [answerOk, answerCode, cswBuilt, State.setMsc, State.answer, State.cswDue, hs]
  · rw [exec_csw_eq hc, if_pos hs]
    rfl
  · rw [exec_csw_eq hc, if_neg (not_not.2 hs), if_pos hne]
    rfl
  · rw [exec_csw_own hc hs, sendCsw_refused h]
    rfl
  · have hnot : ¬s.cswWaits := by
      rintro ⟨hw, hh, ha⟩
      obtain h | ⟨-, h | h⟩ := h
      · simp [h] at hw
      · simp [h] at hh
      · simp [h] at ha
    have hst : s.msc.state = .idle ∨ s.msc.state = .stall ∨ s.msc.state = .csw := h.imp_right And.left
    have hnext (d : Dir) := exec_mscHaltCleared_next hc hst (haltCleared_reoffers hnot d)
    refine ⟨hnext .inp, fun hout => ⟨_, hnext .out, ?_, fun e d hne => ?_, ?_, ?_⟩, fun hout => ?_⟩
    · exact (Offers.congr rfl rfl (State.answer_epDir ..)).2 (armOut_offers hc hout)
    · exact (State.answer_epDir ..).trans (armOut_dirsBut s e d hne)
    · have hmem : (armOut s).mem = s.mem := by rw [armOut_frame]
      exact sameMemory_of hmem
    · exact answer_congr (armOut_frame s) (.code .ok)
    · have hkeep : reoffered s .out = s := armOut_of_not_clear hout
      rw [hnext .out, hkeep]
  · have hw : s.cswWaits := ⟨hs, hh, ha⟩
    rw [exec_mscHaltCleared hc (.inr hs), haltCleared_sends hw, sendCsw_refused]
    · rfl
    · rw [reoffered_msc]
      exact .inr hi
  · have hbusy : s.inDataPhase = true ∨ s.msc.state = .nrr := by
      rw [State.inDataPhase_iff, or_assoc]
      exact hs
    rw [exec_mscHaltCleared_eq hc, if_pos hbusy]
    rfl

end Sys2Proof.Machine
end

section
/-! # The dispositions of a SETUP (41_control_engine.md R123, R124, R129, R134, R135)

What each leaves of endpoint 0 (O22 to O25). -/

namespace Sys2Proof.Machine

section
variable {s t u : State}

/-! ## What is armed and halted on endpoint 0 -/

theorem armEp0Zlp_offers (h : SameDir s u 0 .inp) (hcl : s.clear 0 .inp) :
    Offers s (armEp0Zlp u) 0 .inp (s.nextBuf 0 .inp) 0 := by
  have heps : (armEp0Zlp u).eps = (armIn u 0 .inp (s.nextBuf 0 .inp) 0).eps := by rw [armEp0Zlp_eq, h.nextBuf]
  exact offers_of_armIn h heps hcl (State.gated_zero u) (Nat.zero_le _)

theorem armEp0Out_offers (h : SameDir s u 0 .out) (hcl : s.clear 0 .out) :
    Offers s (armEp0Out u) 0 .out (s.nextBuf 0 .out) s.cfg.mps0 := by
  have heps : (armEp0Out u).eps = (armIn u 0 .out (s.nextBuf 0 .out) s.cfg.mps0).eps := by
    rw [armEp0Out_eq, h.nextBuf, h.cfg]
  exact offers_of_armIn h heps hcl (State.gated_zero u) le_rfl

theorem armEp0Zlp_dirsBut (u : State) : SameDirsBut u (armEp0Zlp u) 0 .inp := sameDirsBut_of_armIn (v := u) rfl rfl

theorem armEp0Out_dirsBut (u : State) : SameDirsBut u (armEp0Out u) 0 .out := sameDirsBut_of_armIn (v := u) rfl rfl

theorem chunkSent_offers (h : SameDir s u 0 .inp) (hcl : s.clear 0 .inp) :
    Offers s (chunkSent u) 0 .inp (s.nextBuf 0 .inp) u.chunkLen := by
  have heps : (chunkSent u).eps = (armIn (chunkStored u) 0 .inp (s.nextBuf 0 .inp) u.chunkLen).eps := by
    rw [chunkSent_frame, h.nextBuf]
  have hn : u.chunkLen ≤ s.cfg.mps0 := by rw [State.chunkLen, h.cfg]; exact Nat.min_le_right ..
  exact offers_of_armIn (v := chunkStored u) ⟨h.cfg, h.epDir⟩ heps hcl (State.gated_zero _) hn

theorem chunkSent_dirsBut (u : State) : SameDirsBut u (chunkSent u) 0 .inp :=
  sameDirsBut_of_armIn (v := chunkStored u) rfl (by rw [chunkSent_frame])

theorem chunkSent_memory (hm : u.memoryOk) : Copied u (chunkSent u) (u.nextBuf 0 .inp) u.cs.cursor u.chunkLen ∧
    SameMemoryOutside u (chunkSent u) (u.nextBuf 0 .inp) u.chunkLen := by
  have hst : (chunkSent u).mem = Memory.writeBytes u.mem (u.nextBuf 0 .inp) (u.bytes u.cs.cursor u.chunkLen) := by
    rw [chunkSent_frame]; rfl
  exact ⟨copied_of_stored hm hst, sameOutside_of_copied hm hst⟩

/-- Both directions of endpoint 0 halted, neither of which was. -/
theorem haltEp0_of_free (hwf : u.cfg.wf = true) (hin : (u.epDir 0 .inp).halted = false)
    (hout : (u.epDir 0 .out).halted = false) : haltEp0 u = halted (halted u 0 .inp) 0 .out := by
  have hdir : (halted u 0 .inp).epDir 0 .out = u.epDir 0 .out := halted_epDir_ne _ _ _ (.inr (by simp))
  have hcfg : (halted u 0 .inp).cfg = u.cfg := rfl
  unfold haltEp0
  rw [setHaltIn_cte (Config.wf_nEp hwf) (isMsc_zero hwf _) hin,
    setHaltIn_cte (hcfg ▸ Config.wf_nEp hwf) (isMsc_zero (by rwa [hcfg]) _) (by rwa [hdir])]

theorem haltEp0_halts_inp (hwf : u.cfg.wf = true) (hin : (u.epDir 0 .inp).halted = false)
    (hout : (u.epDir 0 .out).halted = false) : Halts u (haltEp0 u) 0 .inp := by
  rw [haltEp0_of_free hwf hin hout]
  exact (Halts.congr rfl rfl (halted_epDir_ne _ _ _ (.inr (by simp)))).2 (halted_halts u 0 .inp)

theorem haltEp0_halts_out (hwf : u.cfg.wf = true) (hin : (u.epDir 0 .inp).halted = false)
    (hout : (u.epDir 0 .out).halted = false) : Halts u (haltEp0 u) 0 .out := by
  rw [haltEp0_of_free hwf hin hout]
  exact (Halts.congr (s' := u) (s := halted u 0 .inp) rfl (halted_epDir_ne _ _ _ (.inr (by simp))).symm rfl).2
    (halted_halts (halted u 0 .inp) 0 .out)

theorem haltEp0_aboveZero (u : State) : SameAboveZero u (haltEp0 u) := fun _ _ h =>
  (setHaltIn_epDir_ne _ _ _ _ (.inl h)).trans (setHaltIn_epDir_ne _ _ _ _ (.inl h))

theorem dropTc_zero (q : List Tc) : dropTc (dropTc q 0 .inp) 0 .out = q.filter fun c => !(c.e == 0) := by
  unfold dropTc
  rw [List.filter_filter]
  refine List.filter_congr fun c _ => ?_
  cases c.d <;> cases c.e == 0 <;> rfl

theorem haltEp0_tcq (hwf : u.cfg.wf = true) (hin : (u.epDir 0 .inp).halted = false)
    (hout : (u.epDir 0 .out).halted = false) : (haltEp0 u).tcq = u.tcq.filter fun c => !(c.e == 0) := by
  rw [haltEp0_of_free hwf hin hout]
  exact dropTc_zero u.tcq

/-! ## The status stage -/

theorem exec_accept (hs : s.cteState = .setupReceived) (cb : Option Nat) :
    exec (.accept cb) s = .next ((acceptBody s cb).answer (.code .ok)) := if_neg (not_not.2 hs)

theorem acceptBody_frame (u : State) (cb : Option Nat) : acceptBody u cb =
    { statusOpened u cb with eps := (acceptBody u cb).eps } := by
  rw [acceptBody_eq, armEp0Out_frame, armEp0Zlp_frame]

/-- `ACCEPT` from a state that a command before it left as `s` on endpoint 0. -/
theorem acceptBody_statusStage (hin : SameDir s u 0 .inp) (hout : SameDir s u 0 .out) (hcs : u.cs = s.cs)
    (hi : s.clear 0 .inp) (ho : s.clear 0 .out) (cb : Option Nat) :
    StatusStage s ((acceptBody u cb).answer (.code .ok)) cb ∧ SameAboveZero u ((acceptBody u cb).answer (.code .ok)) := by
  have hz := armEp0Zlp_dirsBut (statusOpened u cb)
  have hz0 := armEp0Out_dirsBut (armEp0Zlp (statusOpened u cb))
  have hdir (e d) : ((acceptBody u cb).answer (.code .ok)).epDir e d =
      (armEp0Out (armEp0Zlp (statusOpened u cb))).epDir e d := State.answer_epDir ..
  have hopen (d) : SameDir u (statusOpened u cb) 0 d := ⟨rfl, epDir_congr rfl _ _⟩
  refine ⟨⟨?_, ?_, ?_, ?_, ?_, ?_, rfl⟩, fun e d h0 => ?_⟩
  · rw [acceptBody_frame]; rfl
  · rw [acceptBody_frame]; rfl
  · rw [acceptBody_frame, ← hcs]
    cases cb <;> rfl
  · rw [acceptBody_frame]; rfl
  · refine (Offers.congr rfl rfl ?_).2 (armEp0Zlp_offers (hin.trans (hopen .inp)) hi)
    rw [hdir, hz0 _ _ (.inr (by simp))]
  · refine (Offers.congr rfl rfl (hdir 0 .out)).2 (armEp0Out_offers (hout.trans ((hopen .out).trans ?_)) ho)
    exact ⟨by rw [armEp0Zlp_frame], hz _ _ (.inr (by simp))⟩
  · rw [hdir, hz0 _ _ (.inl h0), hz _ _ (.inl h0)]
    exact epDir_congr rfl e d

end

/-- Settles O23: `ACCEPT` opens the status stage and arms both directions. -/
theorem acceptArmsStatusStage : Obligations.AcceptArmsStatusStage := by
  unfold Obligations.AcceptArmsStatusStage
  intro s cb hs hi ho
  obtain ⟨hstage, habove⟩ := acceptBody_statusStage (u := s) ⟨rfl, rfl⟩ ⟨rfl, rfl⟩ rfl hi ho cb
  refine ⟨_, exec_accept hs cb, ?_, hstage, habove, ?_, ?_⟩
  · rintro rfl ptr avail
    change execStartControlReturn ptr avail 0 s = _
    simp [execStartControlReturn, hs, answerCode]
  · have hmem : (acceptBody s cb).mem = s.mem := by rw [acceptBody_frame]; rfl
    exact (sameMemory_of hmem).answer _
  · rw [acceptBody_frame]; rfl

/-! ## The data stages -/

section
variable {s : State}

theorem exec_startControlReturn (hs : s.cteState = .setupReceived) {req : Nat} (hr : req ≤ 65535) (h0 : 0 < req)
    (p a : Nat) : exec (.startControlReturn p a req) s = answerOk (controlReturnBody s p a req) := by
  change execStartControlReturn p a req s = _
  rw [execStartControlReturn, if_neg (not_not.2 hs), if_neg (Nat.not_lt.2 hr), if_neg (Nat.pos_iff_ne_zero.1 h0)]

theorem returnOpened_cursor (s : State) (p a req : Nat) : (returnOpened s p a req).cs.cursor = p := rfl

theorem returnOpened_chunkLen (s : State) (p a req : Nat) :
    (returnOpened s p a req).chunkLen = min (min a req) s.cfg.mps0 := rfl

/-- The state of `START_CONTROL_RETURN` once the first chunk is sent. -/
def returnSent (s : State) (p a req : Nat) : State := (armEp0Out (chunkSent (returnOpened s p a req))).setHold false

theorem controlReturnBody_ok {p a req : Nat} (hsrc : p + min (min a req) s.cfg.mps0 ≤ s.cfg.memSize)
    (hdst : s.nextBuf 0 .inp + min (min a req) s.cfg.mps0 ≤ s.cfg.memSize) :
    controlReturnBody s p a req = .next (returnSent s p a req) := by
  have hdst' : (returnOpened s p a req).nextBuf 0 .inp + min (min a req) s.cfg.mps0 ≤ s.cfg.memSize := by
    rwa [State.nextBuf_congr rfl (epDir_congr rfl _ _)]
  rw [controlReturnBody_eq, sendChunk_ok hsrc hdst']
  rfl

theorem exec_startControlReturn_ok (hs : s.cteState = .setupReceived) {p a req : Nat} (hr : req ≤ 65535) (h0 : 0 < req)
    (hsrc : p + min (min a req) s.cfg.mps0 ≤ s.cfg.memSize)
    (hdst : s.nextBuf 0 .inp + min (min a req) s.cfg.mps0 ≤ s.cfg.memSize) :
    exec (.startControlReturn p a req) s = .next ((returnSent s p a req).answer (.code .ok)) := by
  rw [exec_startControlReturn hs hr h0, controlReturnBody_ok hsrc hdst]
  rfl

/-- The session a control return opens, after its first chunk. -/
theorem returnOpened_chunkSent (s : State) (p a req : Nat) :
    (returnOpened s p a req).cs.chunkSent s.cfg.mps0 =
      (let total := min a req
       let n := min total s.cfg.mps0
       { s.cs with
         direction := .inp, cursor := p + n, remaining := total - n, lastLen := n, cbValid := false
         returningShort := decide (total < req)
         needsZlp := decide (total - n = 0 ∧ n = s.cfg.mps0 ∧ total < req) }) := by
  simp [returnOpened, Session.chunkSent, zlpNeeded, returningShort, Bool.decide_and, Bool.and_assoc]

theorem returnSent_frame (s : State) (p a req : Nat) : returnSent s p a req =
    { s with
      eps := (returnSent s p a req).eps, mem := (returnSent s p a req).mem
      cs := (returnOpened s p a req).cs.chunkSent s.cfg.mps0, cteState := .dataIn, ep0Hold := false
      lentSession := (p, a) } := by
  unfold returnSent
  rw [armEp0Out_frame, chunkSent_frame]
  rfl

/-- The first chunk on IN, and OUT for the status packet. -/
theorem returnSent_dirs (hi : s.clear 0 .inp) (ho : s.clear 0 .out) (p a req : Nat) :
    Offers s (returnSent s p a req) 0 .inp (s.nextBuf 0 .inp) (min (min a req) s.cfg.mps0) ∧
      Offers s (returnSent s p a req) 0 .out (s.nextBuf 0 .out) s.cfg.mps0 ∧
      SameAboveZero s (returnSent s p a req) := by
  have hopen (e d) : (returnOpened s p a req).epDir e d = s.epDir e d := epDir_congr rfl e d
  have hsent := chunkSent_dirsBut (returnOpened s p a req)
  have harm := armEp0Out_dirsBut (chunkSent (returnOpened s p a req))
  have hdir (e d) : (returnSent s p a req).epDir e d = (armEp0Out (chunkSent (returnOpened s p a req))).epDir e d :=
    State.setHold_epDir ..
  refine ⟨?_, ?_, fun e d he => ?_⟩
  · refine (Offers.congr rfl rfl ?_).2 (chunkSent_offers ⟨rfl, hopen ..⟩ hi)
    rw [hdir, harm _ _ (.inr (by simp))]
  · refine (Offers.congr rfl rfl (hdir 0 .out)).2 (armEp0Out_offers ⟨by rw [chunkSent_frame]; rfl, ?_⟩ ho)
    rw [hsent _ _ (.inr (by simp)), hopen]
  · rw [hdir, harm _ _ (.inl he), hsent _ _ (.inl he), hopen]

theorem returnSent_memory (hm : s.memoryOk) (p a req : Nat) :
    Copied s (returnSent s p a req) (s.nextBuf 0 .inp) p (min (min a req) s.cfg.mps0) ∧
      SameMemoryOutside s (returnSent s p a req) (s.nextBuf 0 .inp) (min (min a req) s.cfg.mps0) := by
  have hbuf : (returnOpened s p a req).nextBuf 0 .inp = s.nextBuf 0 .inp :=
    State.nextBuf_congr rfl (epDir_congr rfl _ _)
  have hmem : (returnSent s p a req).mem = (chunkSent (returnOpened s p a req)).mem := by
    unfold returnSent
    rw [armEp0Out_frame]
    rfl
  obtain ⟨hcopied, houtside⟩ := chunkSent_memory (u := returnOpened s p a req) hm
  rw [hbuf, returnOpened_cursor, returnOpened_chunkLen] at hcopied
  rw [hbuf, returnOpened_chunkLen] at houtside
  exact ⟨hcopied.congr rfl hmem, houtside.congr rfl hmem⟩

end

/-- Settles O22: the first chunk is sent, and endpoint 0 OUT armed for the status packet. -/
theorem controlReturnSendsFirstChunk : Obligations.ControlReturnSendsFirstChunk := by
  unfold Obligations.ControlReturnSendsFirstChunk
  intro s ptr avail req hm hs
  refine ⟨fun hr => ?_, fun h0 hr hi ho => ?_⟩
  · change execStartControlReturn ptr avail req s = _
    rw [execStartControlReturn, if_neg (not_not.2 hs), if_pos hr]
    rfl
  dsimp only
  intro hsrc hdst
  have hexec := exec_startControlReturn_ok hs hr h0 hsrc hdst
  obtain ⟨hin, hout, habove⟩ := returnSent_dirs hi ho ptr avail req
  obtain ⟨hcopied, houtside⟩ := returnSent_memory hm ptr avail req
  have hcs : (returnSent s ptr avail req).cs = (returnOpened s ptr avail req).cs.chunkSent s.cfg.mps0 := by
    rw [returnSent_frame]
  have hframe := answer_congr (returnSent_frame s ptr avail req) (.code .ok)
  refine ⟨_, hexec, ?_, hin.answer _, hout.answer _, habove.answer _, hcopied.answer _,
    houtside.answer _, ?_⟩
  · rw [State.answer_cs, hcs, returnOpened_chunkSent]
  · rw [State.answer_cs, hcs]
    exact hframe

/-! ## `START_RECEIVE` -/

section
variable {s : State}

theorem exec_startReceive (hs : s.cteState = .setupReceived) {x : Nat} (hx : x ≤ 65535) (b k : Nat) :
    exec (.startReceive b x k) s = .next ((receiveBody s b x k).answer (.code .ok)) := by
  change execStartReceive b x k s = _
  rw [execStartReceive, if_neg (not_not.2 hs), if_neg (Nat.not_lt.2 hx)]
  rfl

theorem receiveBody_frame (s : State) (b x k : Nat) : receiveBody s b x k =
    { receiveOpened s b x k with eps := (receiveBody s b x k).eps } := by
  rw [receiveBody_eq, armEp0Out_frame]
  split
  · rw [armEp0Zlp_frame]
  · rfl

theorem receiveBody_data (s : State) (b k : Nat) {x : Nat} (hx : x ≠ 0) :
    receiveBody s b x k = armEp0Out (receiveOpened s b x k) := by rw [receiveBody_eq, if_neg hx]

theorem receiveBody_noData (s : State) (b k : Nat) :
    receiveBody s b 0 k = armEp0Out (armEp0Zlp (receiveOpened s b 0 k)) := by rw [receiveBody_eq, if_pos rfl]

/-- With a data stage OUT is armed for it, and IN is left alone. -/
theorem receiveBody_data_dirs (ho : s.clear 0 .out) (b k : Nat) {x : Nat} (hx : x ≠ 0) :
    Offers s (receiveBody s b x k) 0 .out (s.nextBuf 0 .out) s.cfg.mps0 ∧
      SameDirsBut s (receiveBody s b x k) 0 .out := by
  have hopen (e d) : (receiveOpened s b x k).epDir e d = s.epDir e d := epDir_congr rfl e d
  rw [receiveBody_data s b k hx]
  exact ⟨armEp0Out_offers ⟨rfl, hopen ..⟩ ho, fun e d h => (armEp0Out_dirsBut _ e d h).trans (hopen e d)⟩

/-- Without one, IN too is armed, for the status stage. -/
theorem receiveBody_noData_dirs (hi : s.clear 0 .inp) (ho : s.clear 0 .out) (b k : Nat) :
    Offers s (receiveBody s b 0 k) 0 .inp (s.nextBuf 0 .inp) 0 ∧
      Offers s (receiveBody s b 0 k) 0 .out (s.nextBuf 0 .out) s.cfg.mps0 ∧
      SameAboveZero s (receiveBody s b 0 k) := by
  have hopen (e d) : (receiveOpened s b 0 k).epDir e d = s.epDir e d := epDir_congr rfl e d
  have hzlp := armEp0Zlp_dirsBut (receiveOpened s b 0 k)
  have hout := armEp0Out_dirsBut (armEp0Zlp (receiveOpened s b 0 k))
  rw [receiveBody_noData]
  refine ⟨?_, armEp0Out_offers ⟨by rw [armEp0Zlp_frame]; rfl, ?_⟩ ho, fun e d he => ?_⟩
  · exact (Offers.congr rfl rfl (hout _ _ (.inr (by simp)))).2 (armEp0Zlp_offers ⟨rfl, hopen ..⟩ hi)
  · rw [hzlp _ _ (.inr (by simp)), hopen]
  · rw [hout _ _ (.inl he), hzlp _ _ (.inl he), hopen]

end

/-- Settles O24: endpoint 0 OUT is armed, and IN too where there is no data stage. -/
theorem receiveArmsDataStage : Obligations.ReceiveArmsDataStage := by
  unfold Obligations.ReceiveArmsDataStage
  intro s buf expected cb hs
  refine ⟨fun hx => ?_, fun hx hi ho => ?_⟩
  · change execStartReceive buf expected cb s = _
    rw [execStartReceive, if_neg (not_not.2 hs), if_pos hx]
    rfl
  have hframe := receiveBody_frame s buf expected cb
  have hmem : (receiveBody s buf expected cb).mem = s.mem := by rw [hframe]; rfl
  have hcte : (receiveBody s buf expected cb).cteState = if expected = 0 then .status else .dataOut := by
    rw [hframe]; rfl
  have hcs : (receiveBody s buf expected cb).cs = (receiveOpened s buf expected cb).cs := by rw [hframe]
  have hall := answer_congr hframe (.code .ok)
  have hdirs : (expected = 0 → Offers s (receiveBody s buf expected cb) 0 .inp (s.nextBuf 0 .inp) 0) ∧
      (expected ≠ 0 → (receiveBody s buf expected cb).epDir 0 .inp = s.epDir 0 .inp) ∧
      Offers s (receiveBody s buf expected cb) 0 .out (s.nextBuf 0 .out) s.cfg.mps0 ∧
      SameAboveZero s (receiveBody s buf expected cb) := by
    by_cases h0 : expected = 0
    · subst h0
      obtain ⟨hin, hout, habove⟩ := receiveBody_noData_dirs hi ho buf cb
      exact ⟨fun _ => hin, fun h => absurd rfl h, hout, habove⟩
    · obtain ⟨hout, hdirs⟩ := receiveBody_data_dirs ho buf cb h0
      exact ⟨fun h => absurd h h0, fun _ => hdirs _ _ (.inr (by simp)), hout, hdirs.aboveZero⟩
  obtain ⟨hin, hkept, hout, habove⟩ := hdirs
  refine ⟨_, exec_startReceive hs hx buf cb, hcte, ?_, fun h => (hin h).answer _, fun h => ?_, hout.answer _,
    habove.answer _, (sameMemory_of hmem).answer _, ?_⟩
  · rw [State.answer_cs, hcs]; rfl
  · rw [State.answer_epDir, hkept h]
  · rw [State.answer_cs, hcs, State.answer_cteState, hcte]
    exact hall

/-! ## `REJECT` -/

section
variable {s : State}

theorem exec_reject (hs : s.cteState = .setupReceived) :
    exec .reject s = .next ((rejectBody s 8).answer (.code .ok)) := if_neg (not_not.2 hs)

/-- The request has an IN data stage (R135). -/
def State.inStage (s : State) : Prop := s.setup.bmRequestType.getLsbD 7 = true ∧ s.setup.wLength ≠ 0

theorem setupDirection_inp (p : SetupPacket) : setupDirection p = .inp ↔ p.bmRequestType.getLsbD 7 = true := by
  unfold setupDirection
  split <;> simp_all

theorem rejected_inStage (hwf : s.cfg.wf = true) (hh : (s.epDir 0 .inp).halted = false) (hin : s.inStage) :
    rejected s 8 = armEp0Out (halted s 0 .inp) := by
  rw [rejected, if_pos ⟨rfl, (setupDirection_inp _).2 hin.1, hin.2⟩,
    setHaltIn_cte (Config.wf_nEp hwf) (isMsc_zero hwf _) hh]

theorem rejected_outStage (hin : ¬s.inStage) : rejected s 8 = haltEp0 s := by
  rw [rejected, if_neg fun ⟨_, hd, hl⟩ => hin ⟨(setupDirection_inp _).1 hd, hl⟩]

/-- An IN data stage: IN is halted, and OUT armed for the next SETUP's data. -/
theorem rejected_inStage_dirs (hwf : s.cfg.wf = true) (hi : (s.epDir 0 .inp).halted = false) (ho : s.clear 0 .out)
    (hin : s.inStage) :
    Halts s (rejected s 8) 0 .inp ∧ Offers s (rejected s 8) 0 .out (s.nextBuf 0 .out) s.cfg.mps0 ∧
      SameAboveZero s (rejected s 8) ∧ (rejected s 8).tcq = dropTc s.tcq 0 .inp := by
  have harm := armEp0Out_dirsBut (halted s 0 .inp)
  have hout : SameDir s (halted s 0 .inp) 0 .out := ⟨rfl, halted_epDir_ne _ _ _ (.inr (by simp))⟩
  rw [rejected_inStage hwf hi hin]
  refine ⟨(Halts.congr rfl rfl (harm _ _ (.inr (by simp)))).2 (halted_halts s 0 .inp), armEp0Out_offers hout ho,
    fun e d he => ?_, ?_⟩
  · rw [harm _ _ (.inl he), halted_epDir_ne _ _ _ (.inl he)]
  · rw [armEp0Out_frame]; rfl

/-- None: both directions are halted. -/
theorem rejected_outStage_dirs (hwf : s.cfg.wf = true) (hi : (s.epDir 0 .inp).halted = false)
    (ho : (s.epDir 0 .out).halted = false) (hin : ¬s.inStage) :
    Halts s (rejected s 8) 0 .inp ∧ Halts s (rejected s 8) 0 .out ∧ SameAboveZero s (rejected s 8) ∧
      (rejected s 8).tcq = s.tcq.filter fun c => !(c.e == 0) := by
  rw [rejected_outStage hin]
  exact ⟨haltEp0_halts_inp hwf hi ho, haltEp0_halts_out hwf hi ho, haltEp0_aboveZero s, haltEp0_tcq hwf hi ho⟩

theorem rejected_cswArmed (hwf : s.cfg.wf = true) (hi : (s.epDir 0 .inp).halted = false)
    (ho : (s.epDir 0 .out).halted = false) : (rejected s 8).msc = s.msc := by
  by_cases hin : s.inStage
  · rw [rejected_inStage hwf hi hin, armEp0Out_frame]; rfl
  · rw [rejected_outStage hin, haltEp0_of_free hwf hi ho]; rfl

/-- `REJECT` with endpoint 0 not halted. -/
theorem rejectBody_frame (hwf : s.cfg.wf = true) (hi : (s.epDir 0 .inp).halted = false)
    (ho : (s.epDir 0 .out).halted = false) : rejectBody s 8 =
      { s with eps := (rejectBody s 8).eps, tcq := (rejectBody s 8).tcq, cs := s.cs.ended, cteState := .idle
               ep0Hold := false } := by
  have hmsc := rejected_cswArmed (s := s.setHold false) hwf (by rwa [State.setHold_epDir])
    (by rwa [State.setHold_epDir])
  have hframe := rejected_frame (s.setHold false) 8
  rw [hmsc] at hframe
  rw [rejectBody_eq, hframe]
  rfl

theorem rejectBody_epDir (e : EpNum) (d : Dir) :
    (rejectBody s 8).epDir e d = (rejected (s.setHold false) 8).epDir e d := by
  rw [rejectBody_eq]
  exact epDir_congr rfl e d

theorem rejectBody_tcq : (rejectBody s 8).tcq = (rejected (s.setHold false) 8).tcq := by rw [rejectBody_eq]

/-- What `REJECT` leaves of endpoint 0 and of the queue. -/
theorem rejectBody_dirs (hwf : s.cfg.wf = true) (hi : s.clear 0 .inp) (ho : s.clear 0 .out) :
    let inStage := s.setup.bmRequestType.getLsbD 7 = true ∧ s.setup.wLength ≠ 0
    Halts s (rejectBody s 8) 0 .inp ∧
      (inStage → Offers s (rejectBody s 8) 0 .out (s.nextBuf 0 .out) s.cfg.mps0) ∧
      (¬inStage → Halts s (rejectBody s 8) 0 .out) ∧
      ((rejectBody s 8).tcq = s.tcq.filter fun c => !(c.e == 0 && (c.d == .inp || !decide inStage))) ∧
      SameAboveZero s (rejectBody s 8) := by
  intro inStage
  have hdir (d) : SameDir s (s.setHold false) 0 d := ⟨rfl, State.setHold_epDir ..⟩
  have hi' : ((s.setHold false).epDir 0 .inp).halted = false := ((hdir .inp).clear.2 hi).1
  have ho' := (hdir .out).clear.2 ho
  have habove (h : SameAboveZero (s.setHold false) (rejected (s.setHold false) 8)) :
      SameAboveZero s (rejectBody s 8) :=
    fun e d h0 => (rejectBody_epDir e d).trans ((h e d h0).trans (State.setHold_epDir ..))
  have hhalts {d} (h : Halts (s.setHold false) (rejected (s.setHold false) 8) 0 d) : Halts s (rejectBody s 8) 0 d :=
    (Halts.congr rfl (hdir d).epDir.symm (rejectBody_epDir ..)).2 h
  rw [rejectBody_tcq]
  by_cases hin : inStage
  · obtain ⟨h1, h2, h3, h4⟩ := rejected_inStage_dirs (s := s.setHold false) hwf hi' ho' hin
    refine ⟨hhalts h1, fun _ => ?_, fun h => absurd hin h, ?_, habove h3⟩
    · rw [(hdir .out).nextBuf] at h2
      exact (Offers.congr rfl (hdir .out).epDir.symm (rejectBody_epDir ..)).2 h2
    · rw [h4, decide_eq_true hin]
      simp [dropTc]
  · obtain ⟨h1, h2, h3, h4⟩ := rejected_outStage_dirs (s := s.setHold false) hwf hi' ho'.1 hin
    refine ⟨hhalts h1, fun h => absurd h hin, fun _ => hhalts h2, ?_, habove h3⟩
    rw [h4, decide_eq_false hin]
    simp

end

/-- Settles O25: IN is halted, and OUT armed or halted as the request has an IN data stage or not. -/
theorem rejectStallsEndpointZero : Obligations.RejectStallsEndpointZero := by
  unfold Obligations.RejectStallsEndpointZero
  intro s hwf hs hi ho
  obtain ⟨hin, hoffers, hhalts, hq, hkept⟩ := rejectBody_dirs hwf hi ho
  have hframe := rejectBody_frame hwf hi.1 ho.1
  have hmem : (rejectBody s 8).mem = s.mem := by rw [hframe]
  have hcs : (rejectBody s 8).cs = s.cs.ended := by rw [hframe]
  refine ⟨_, exec_reject hs, hin.answer _, fun h => (hoffers h).answer _, fun h => (hhalts h).answer _, hcs, hq,
    hkept.answer _, (sameMemory_of hmem).answer _, ?_⟩
  rw [State.answer_cs, hcs]
  exact answer_congr hframe (.code .ok)

end Sys2Proof.Machine
end

section
/-! # The device-state commands, the resets, and the reset of the transport

`DEV_SET_ADDRESS` and `DEV_SET_CONFIG` (42_request_dispatch.md R152, R153), `STACK_INIT` and `BUS_RESET`
(70_reset_and_hazards.md R270, R271), and `MSC_RESET` (43_msc_bot.md R207, R208): O27 to O30 and O35. -/

namespace Sys2Proof.Machine

/-! ## Directions that were withdrawn -/

section
variable {s s' t t' u : State} {e : EpNum} {d : Dir}

theorem Restarted.congr (hs : s'.epDir e d = s.epDir e d) (ht : t'.epDir e d = t.epDir e d) :
    Restarted s' t' e d ↔ Restarted s t e d := by simp [Restarted, hs, ht]

theorem Flushed.congr (hs : s'.epDir e d = s.epDir e d) (ht : t'.epDir e d = t.epDir e d) :
    Flushed s' t' e d ↔ Flushed s t e d := by simp [Flushed, hs, ht]

theorem Restarted.answer (h : Restarted s t e d) (r : Reply) : Restarted s (t.answer r) e d :=
  (Restarted.congr rfl (State.answer_epDir ..)).2 h

theorem Flushed.answer (h : Flushed s t e d) (r : Reply) : Flushed s (t.answer r) e d :=
  (Flushed.congr rfl (State.answer_epDir ..)).2 h

/-- The block has every descriptor of a direction, and no completion of it waits. -/
theorem State.clear_of_all (hh : (s.epDir e d).halted = false) (ho : ∀ j, ((s.epDir e d).bd j).owner = .fw)
    (hu : ∀ j, (s.epDir e d).unread j = false) : s.clear e d :=
  ⟨hh, (State.quiet_iff ..).2 fun j _ => ⟨ho j, hu j⟩⟩

theorem Restarted.clear (h : Restarted s u e d) : u.clear e d := by
  obtain ⟨hbd, hunread, -, -, -, hh, -, -⟩ := h
  exact State.clear_of_all hh (fun j => by rw [hbd, Desc.giveBack_owner]) hunread

theorem Flushed.clear (h : Flushed s u e d) (hh : (s.epDir e d).halted = false) : u.clear e d := by
  obtain ⟨hbd, hunread, -, -, -, hhalt, -, -⟩ := h
  exact State.clear_of_all (hhalt.trans hh) (fun j => by rw [hbd, hh]; simp) hunread

/-- The next to arm is the one the channel looks at. -/
theorem State.active_eq_hw (hc : u.cfg = s.cfg) (ha : (u.epDir e d).activeIdx = (s.epDir e d).hwIdx) :
    u.active e d = s.hw e d := by simp [State.active, State.hw, State.pp, hc, ha]

theorem Restarted.active (h : Restarted s u e d) (hc : u.cfg = s.cfg) : u.active e d = s.hw e d := by
  obtain ⟨-, -, -, -, ha, -⟩ := h
  exact State.active_eq_hw hc ha

theorem Flushed.active (h : Flushed s u e d) (hc : u.cfg = s.cfg) (hh : (s.epDir e d).halted = false) :
    u.active e d = s.hw e d := by
  obtain ⟨-, -, -, -, ha, -⟩ := h
  rw [hh] at ha
  exact State.active_eq_hw hc ha

end

/-! ## `DEV_SET_ADDRESS` -/

theorem exec_devSetAddress (s : State) (a : Nat) :
    exec (.devSetAddress a) s = answerCode (setAddressBody s a) (setAddressResult s a) := rfl

theorem setAddressResult_received {s : State} (hs : s.cteState = .setupReceived) (a : Nat) :
    setAddressResult s a = if 127 < a then .errArg else .ok := if_neg (not_not.2 hs)

/-- Settles O27: the operand fits seven bits or not. -/
theorem devSetAddressHoldsAddress : Obligations.DevSetAddressHoldsAddress := by
  unfold Obligations.DevSetAddressHoldsAddress
  intro s a hs
  rw [exec_devSetAddress, setAddressBody, setAddressResult_received hs]
  refine ⟨fun ha => ?_, fun ha => ?_⟩
  · rw [if_pos ha]; rfl
  · rw [if_neg (Nat.not_lt.2 ha)]; rfl

/-! ## `DEV_SET_CONFIG` -/

section
variable {s : State} {v : Nat}

theorem exec_devSetConfig (s : State) (v : Nat) :
    exec (.devSetConfig v) s = answerCode (setConfigBody s v) (setConfigResult s v) := rfl

theorem exec_devSetConfig_rejected (hs : s.cteState = .setupReceived) (h0 : v ≠ 0) (ho : s.cfg.offers v = false) :
    exec (.devSetConfig v) s = .next (s.answer (.code .errArg)) := by
  have hr : setConfigResult s v = .errArg := by
    rw [setConfigResult, if_neg (not_not.2 hs), if_pos ⟨h0, ho⟩]
  rw [exec_devSetConfig, setConfigBody_eq, hr]
  rfl

theorem exec_devSetConfig_ok (hr : setConfigResult s v = .ok) :
    exec (.devSetConfig v) s = .next ((setConfigBody s v).answer (.code .ok)) := by
  rw [exec_devSetConfig, hr]; rfl

theorem setConfigResult_byte {v : Byte} (hs : s.cteState = .setupReceived) :
    setConfigResult s v.toNat = .ok ↔ v = 0 ∨ v ∈ s.cfg.configValues := by
  have h0 : v.toNat = 0 ↔ v = 0 := (BitVec.toNat_eq (y := 0#8)).symm
  rw [setConfigResult_ok, Config.offers_toNat, h0]
  simp [hs]

theorem configSelected_restarted (s : State) (v : Nat) {e : EpNum} (he : e ≠ 0) (d : Dir) :
    Restarted s (configSelected s v) e d :=
  (Restarted.congr rfl (epDir_congr (by rw [configSelected_frame]) e d)).2 (restartEndpoints_restarted s he d)

theorem configSelected_epDir_zero (s : State) (v : Nat) (d : Dir) : (configSelected s v).epDir 0 d = s.epDir 0 d := by
  have h : (configSelected s v).epDir 0 d = (restartEndpoints s).epDir 0 d := epDir_congr (by rw [configSelected_frame]) ..
  rw [h, restartEndpoints_epDir, if_pos rfl]

theorem configSelected_cfg (s : State) (v : Nat) : (configSelected s v).cfg = s.cfg := by rw [configSelected_frame]

theorem setConfigBody_of_ok (hr : setConfigResult s v = .ok) :
    setConfigBody s v = if v ≠ 0 then armOut (configSelected s v) else configSelected s v := by
  rw [setConfigBody_eq, if_pos hr]

/-- `DEV_SET_CONFIG` taken: everything but the endpoint table. -/
theorem setConfigBody_ok_frame (hr : setConfigResult s v = .ok) : setConfigBody s v =
    { s with
      eps := (setConfigBody s v).eps, tcq := s.tcq.filter fun t => t.e == 0
      dev := { s.dev with configurationValue := BitVec.ofNat 8 v }
      msc := { s.msc.clearTransient with state := .idle }, outputs := s.outputs ++ unwound s.msc } := by
  rw [setConfigBody_of_ok hr]
  split
  · rw [armOut_frame, configSelected_frame]
  · rw [configSelected_frame]

theorem setConfigBody_same (s : State) (v : Nat) : setConfigBody s v =
    { s with eps := (setConfigBody s v).eps, tcq := (setConfigBody s v).tcq, dev := (setConfigBody s v).dev
             msc := (setConfigBody s v).msc, outputs := (setConfigBody s v).outputs } := by
  rw [setConfigBody_frame]

/-- Only bulk OUT is offered again, and only where a configuration is selected. -/
theorem setConfigBody_epDir (hr : setConfigResult s v = .ok) {e : EpNum} {d : Dir}
    (h : e ≠ s.cfg.mscOut ∨ d ≠ .out ∨ v = 0) : (setConfigBody s v).epDir e d = (configSelected s v).epDir e d := by
  rw [setConfigBody_of_ok hr]
  split
  · next hv =>
    refine armOut_dirsBut _ _ _ ?_
    rw [configSelected_cfg]
    exact h.imp_right fun h => h.resolve_right hv
  · rfl

theorem setConfigBody_offers (hwf : s.cfg.wf = true) (hr : setConfigResult s v = .ok) (hv : BitVec.ofNat 8 v ≠ 0#8) :
    Offers (configSelected s v) (setConfigBody s v) s.cfg.mscOut .out
      ((configSelected s v).nextBuf s.cfg.mscOut .out) (s.cfg.mps s.cfg.mscOut .out) := by
  have hne : v ≠ 0 := by rintro rfl; exact hv rfl
  have hclear := (configSelected_restarted s v (Config.wf_mscOut hwf).1 .out).clear
  have hconf : (configSelected s v).dev.configurationValue ≠ 0 := by rw [configSelected_frame]; exact hv
  rw [← configSelected_cfg s v] at hclear
  have hoffers := armOut_offers hconf hclear
  rw [configSelected_cfg] at hoffers
  rwa [setConfigBody_of_ok hr, if_pos hne]

/-- A direction above endpoint 0 comes back, and whether or not it is then offered it is not halted, has toggle 0 and
nothing unread. -/
theorem setConfigBody_started (hwf : s.cfg.wf = true) (hr : setConfigResult s v = .ok) (hb : v < 256) {e : EpNum}
    (he : e ≠ 0) (d : Dir) :
    let y := (setConfigBody s v).epDir e d
    y.halted = false ∧ y.nextToggle = false ∧ y.hwIdx = (s.epDir e d).hwIdx ∧ y.rdIdx = (s.epDir e d).hwIdx ∧
      ∀ k, y.unread k = false := by
  obtain ⟨-, hunread, hrd, hhw, -, hhalt, htog, -⟩ := configSelected_restarted s v he d
  by_cases h : e ≠ s.cfg.mscOut ∨ d ≠ .out ∨ v = 0
  · rw [setConfigBody_epDir hr h]
    exact ⟨hhalt, htog, hhw, hrd, hunread⟩
  · simp only [not_or, not_not] at h
    obtain ⟨rfl, rfl, hv⟩ := h
    have hv' : BitVec.ofNat 8 v ≠ 0#8 := fun h0 => hv (by
      have := congrArg BitVec.toNat h0
      simpa [Nat.mod_eq_of_lt hb] using this)
    obtain ⟨-, -, ohalt, otog, ohw, ord, ou0, ou1, -⟩ := setConfigBody_offers hwf hr hv'
    refine ⟨ohalt.trans hhalt, otog.trans htog, ohw.trans hhw, ord.trans hrd, fun k => ?_⟩
    cases k
    · exact ou0.trans (hunread false)
    · exact ou1.trans (hunread true)

end

/-- Settles O28: the endpoints are restarted (`configSelected`), and then bulk OUT is offered. -/
theorem devSetConfigRestartsEndpoints : Obligations.DevSetConfigRestartsEndpoints := by
  unfold Obligations.DevSetConfigRestartsEndpoints
  intro s v hwf hs
  have h0 : v.toNat = 0 ↔ v = 0 := (BitVec.toNat_eq (y := 0#8)).symm
  refine ⟨fun n hn => exec_devSetConfig_rejected hs (by omega) (Config.offers_large hn _), fun hv hmem => ?_,
    fun hv => ?_⟩
  · refine exec_devSetConfig_rejected hs (mt h0.1 hv) ?_
    rw [← Bool.not_eq_true, Config.offers_toNat]
    exact hmem
  have hr := (setConfigResult_byte hs).2 hv
  have hnat : BitVec.ofNat 8 v.toNat = v := by simp
  have hframe := setConfigBody_ok_frame hr
  rw [hnat] at hframe
  have hout0 := (Config.wf_mscOut hwf).1
  have hrestarted := configSelected_restarted s v.toNat hout0 .out
  have hoffers (hne : v ≠ 0) := setConfigBody_offers hwf hr (by rwa [hnat])
  have hmem : (setConfigBody s v.toNat).mem = s.mem := by rw [hframe]
  have hdev : (setConfigBody s v.toNat).dev = { s.dev with configurationValue := v } := by rw [hframe]
  have htcq : (setConfigBody s v.toNat).tcq = s.tcq.filter fun c => c.e == 0 := by rw [hframe]
  have hmsc : (setConfigBody s v.toNat).msc = { s.msc.clearTransient with state := .idle } := by rw [hframe]
  have hoe : (setConfigBody s v.toNat).outputs = s.outputs ++ unwound s.msc := by rw [hframe]
  refine ⟨_, exec_devSetConfig_ok hr, hdev, htcq, fun e d he => ?_, fun e d he hne => ?_,
    fun hne => ⟨configSelected s v.toNat, configSelected_cfg .., hrestarted, (hoffers hne).answer _⟩, fun hne => ?_,
    fun d => ?_, hmsc, hoe, (sameMemory_of hmem).answer _, ?_⟩
  · rw [State.answer_epDir]
    exact setConfigBody_started hwf hr v.isLt he d
  · refine (Restarted.congr rfl ?_).2 (configSelected_restarted s v.toNat he d)
    rw [State.answer_epDir, setConfigBody_epDir hr (hne.imp_right (·.imp_right h0.2))]
  · obtain ⟨hbd, -⟩ := hoffers hne
    obtain ⟨-, -, -, -, -, -, htog, -⟩ := hrestarted
    rw [State.nextBuf, configSelected_cfg,
      (configSelected_restarted s v.toNat hout0 .out).active (configSelected_cfg ..), htog] at hbd
    rw [State.answer_epDir]
    exact hbd
  · rw [State.answer_epDir, setConfigBody_epDir hr (.inl hout0.symm), configSelected_epDir_zero]
  · exact answer_congr (setConfigBody_same s v.toNat) (.code .ok)

/-! ## `STACK_INIT` and `BUS_RESET` -/

section
variable {s : State}

/-- The endpoint table both resets leave. -/
theorem epInit_dirs (s : State) (e : EpNum) (d : Dir) :
    ((epInit s).epDir e d).halted = false ∧ ((epInit s).epDir e d).nextToggle = false ∧
      (e ≠ 0 ∨ d = .inp → ∀ k, (((epInit s).epDir e d).bd k).owner = .fw) := by
  by_cases h : e ≠ 0 ∨ d ≠ .out
  · simp [epInit_epDir_ne s h]
  · simp only [not_or, not_not] at h
    obtain ⟨rfl, rfl⟩ := h
    simp [epInit_epDir_zero_out s]

theorem epInit_bd_zero (s : State) :
    ((epInit s).epDir 0 .out).bd false = ⟨s.cfg.epbuf 0 .out false, s.cfg.mps0, .hw, false, false⟩ ∧
      (((epInit s).epDir 0 .out).bd true).owner = .fw := by
  simp [epInit_epDir_zero_out s]

theorem exec_stackInit (s : State) : exec .stackInit s = .next (stackInit s) := rfl

theorem exec_busReset_masked (h : s.tcIrqEn = false) : exec .busReset s = .next (s.setBusReset true) := by
  change (if s.tcIrqEn then _ else _) = _
  rw [h]; rfl

theorem exec_busReset (h : s.tcIrqEn = true) : exec .busReset s = .next (busReset (s.setBusReset false)) := by
  change (if s.tcIrqEn then _ else _) = _
  rw [h]; rfl

end

/-- Settles O29: `stackInit_eq` and the endpoint table of `EP_INIT`. -/
theorem stackInitState : Obligations.StackInitState := by
  unfold Obligations.StackInitState
  intro s
  have hframe := stackInit_eq s
  have hdir (e d) : (stackInit s).epDir e d = (epInit s).epDir e d := epDir_congr (by rw [hframe]) e d
  obtain ⟨hbd, howner⟩ := epInit_bd_zero s
  refine ⟨_, exec_stackInit s, by rw [hframe], by rw [hframe], by rw [hframe]; rfl, fun e d => ?_, ?_, ?_,
    ⟨_, exec_epInit s, by rw [hframe]; rfl⟩, sameMemory_of (by rw [hframe]), by rw [hframe]⟩
  · rw [hdir]; exact epInit_dirs s e d
  · rw [hdir]; exact hbd
  · rw [hdir]; exact howner

/-- Settles O30: `busReset_eq` where it is taken; masked, the signal is remembered. -/
theorem busResetAbortsAndResets : Obligations.BusResetAbortsAndResets := by
  unfold Obligations.BusResetAbortsAndResets
  intro s
  refine ⟨fun hirq => ⟨_, exec_busReset_masked hirq, rfl⟩, fun hirq => ?_⟩
  have hframe := busReset_eq (s.setBusReset false)
  have heps : (epInit (s.setBusReset false)).eps = (epInit s).eps := epInit_eps_congr rfl rfl
  have hdir (e d) : (busReset (s.setBusReset false)).epDir e d = (epInit s).epDir e d :=
    epDir_congr (by rw [hframe, heps]) e d
  refine ⟨_, exec_busReset hirq, by rw [hframe]; rfl, by rw [hframe]; rfl, by rw [hframe]; rfl, by rw [hframe]; rfl,
    fun e d => ?_, ?_, ⟨_, exec_epInit s, by rw [hframe, heps]; rfl⟩, sameMemory_of (by rw [hframe]; rfl),
    by rw [hframe]; rfl⟩
  · rw [hdir]; exact epInit_dirs s e d
  · rw [hdir]; exact (epInit_bd_zero s).1

/-! ## `MSC_RESET` -/

section
variable {s : State}

/-- The state in which `MSC_RESET` offers bulk OUT, if it does. -/
def mscFlushed (s : State) : State :=
  toMscState (flush (flush (unwind s) s.cfg.mscIn .inp) s.cfg.mscOut .out) .idle

theorem mscFlushed_frame (s : State) : mscFlushed s =
    { s with
      eps := (mscFlushed s).eps, tcq := s.tcq.filter fun c => !s.isMsc c.e c.d
      msc := { s.msc.clearTransient with state := .idle }, outputs := s.outputs ++ unwound s.msc } := by
  have hq : dropTc (dropTc s.tcq s.cfg.mscIn .inp) s.cfg.mscOut .out = s.tcq.filter fun c => !s.isMsc c.e c.d := by
    unfold dropTc
    rw [List.filter_filter]
    refine List.filter_congr fun c _ => ?_
    cases c.d <;> simp
  unfold mscFlushed
  rw [flush_frame, flush_frame, unwind_eq, ← hq]
  rfl

theorem mscFlushed_cfg (s : State) : (mscFlushed s).cfg = s.cfg := by rw [mscFlushed_frame]

theorem mscFlushed_epDir (s : State) (e : EpNum) (d : Dir) : (mscFlushed s).epDir e d =
    (flush (flush (unwind s) s.cfg.mscIn .inp) s.cfg.mscOut .out).epDir e d := State.setMsc_epDir ..

theorem unwind_epDir (s : State) (e : EpNum) (d : Dir) : (unwind s).epDir e d = s.epDir e d :=
  epDir_congr (by rw [unwind_eq]) e d

theorem mscFlushed_inp (s : State) : Flushed s (mscFlushed s) s.cfg.mscIn .inp :=
  (Flushed.congr (unwind_epDir ..).symm ((mscFlushed_epDir ..).trans (flush_epDir_ne _ _ _ (.inr (by simp))))).2
    (flush_flushed (unwind s) s.cfg.mscIn .inp)

theorem mscFlushed_out (s : State) : Flushed s (mscFlushed s) s.cfg.mscOut .out :=
  (Flushed.congr ((unwind_epDir ..).symm.trans (flush_epDir_ne _ _ _ (.inr (by simp))).symm) (mscFlushed_epDir ..)).2
    (flush_flushed (flush (unwind s) s.cfg.mscIn .inp) s.cfg.mscOut .out)

theorem mscFlushed_other {e : EpNum} {d : Dir} (h : s.isMsc e d = false) : (mscFlushed s).epDir e d = s.epDir e d := by
  have hno := mt (s.isMsc_iff e d).2 (by simp [h])
  simp only [not_or, not_and_or] at hno
  rw [mscFlushed_epDir, flush_epDir_ne _ _ _ hno.2, flush_epDir_ne _ _ _ hno.1, unwind_epDir]

theorem mscFlushed_halted (s : State) (e : EpNum) (d : Dir) :
    ((mscFlushed s).epDir e d).halted = (s.epDir e d).halted := by
  cases h : s.isMsc e d with
  | false => rw [mscFlushed_other h]
  | true =>
    obtain ⟨rfl, rfl⟩ | ⟨rfl, rfl⟩ := (s.isMsc_iff e d).1 h
    · obtain ⟨-, -, -, -, -, hh, -, -⟩ := mscFlushed_inp s
      exact hh
    · obtain ⟨-, -, -, -, -, hh, -, -⟩ := mscFlushed_out s
      exact hh

/-- Bulk OUT is offered again unless it is halted. -/
theorem mscResetBody_eq (s : State) : mscResetBody s =
    if (s.epDir s.cfg.mscOut .out).halted = true then mscFlushed s else armOut (mscFlushed s) := by
  have hdef : mscResetBody s =
      if ((mscFlushed s).epDir (mscFlushed s).cfg.mscOut .out).halted then mscFlushed s else armOut (mscFlushed s) := rfl
  rw [hdef, mscFlushed_cfg, mscFlushed_halted]

theorem exec_mscReset (hc : s.dev.configurationValue ≠ 0) :
    exec .mscReset s = .next ((mscResetBody s).answer (.code .ok)) := by
  change (if !s.configured then _ else _) = _
  rw [State.configured_of hc, if_neg (by decide)]
  rfl

theorem mscResetBody_frame (s : State) : mscResetBody s =
    { s with
      eps := (mscResetBody s).eps, tcq := s.tcq.filter fun c => !s.isMsc c.e c.d
      msc := { s.msc.clearTransient with state := .idle }, outputs := s.outputs ++ unwound s.msc } := by
  rw [mscResetBody_eq]
  split
  · rw [mscFlushed_frame]
  · rw [armOut_frame, mscFlushed_frame]

theorem mscResetBody_dirsBut (s : State) : SameDirsBut (mscFlushed s) (mscResetBody s) s.cfg.mscOut .out := by
  intro e d hne
  rw [mscResetBody_eq]
  split
  · rfl
  · exact armOut_dirsBut _ _ _ (by rwa [mscFlushed_cfg])

theorem mscResetBody_of_halted (hh : (s.epDir s.cfg.mscOut .out).halted = true) : mscResetBody s = mscFlushed s := by
  rw [mscResetBody_eq, if_pos hh]

theorem mscResetBody_offers (hc : s.dev.configurationValue ≠ 0) (hh : (s.epDir s.cfg.mscOut .out).halted = false) :
    Offers (mscFlushed s) (mscResetBody s) s.cfg.mscOut .out ((mscFlushed s).nextBuf s.cfg.mscOut .out)
      (s.cfg.mps s.cfg.mscOut .out) := by
  have hclear := (mscFlushed_out s).clear hh
  have hconf : (mscFlushed s).dev.configurationValue ≠ 0 := by rwa [mscFlushed_frame]
  rw [← mscFlushed_cfg s] at hclear
  have hoffers := armOut_offers hconf hclear
  rw [mscFlushed_cfg] at hoffers
  rwa [mscResetBody_eq, if_neg (by simp [hh])]

theorem mscResetBody_halted (hc : s.dev.configurationValue ≠ 0) (e : EpNum) (d : Dir) :
    ((mscResetBody s).epDir e d).halted = (s.epDir e d).halted := by
  obtain ⟨rfl, rfl⟩ | hne := endDir_or s.cfg.mscOut e .out d
  · cases hh : (s.epDir s.cfg.mscOut .out).halted with
    | true => rw [mscResetBody_of_halted hh, mscFlushed_halted, hh]
    | false =>
      obtain ⟨-, -, ohalt, -⟩ := mscResetBody_offers hc hh
      rw [ohalt, mscFlushed_halted, hh]
  · rw [mscResetBody_dirsBut s e d hne, mscFlushed_halted]

end

/-- Settles O35: both directions are flushed (`mscFlushed`), and bulk OUT is then offered unless it is halted. -/
theorem mscResetKeepsHalts : Obligations.MscResetKeepsHalts := by
  unfold Obligations.MscResetKeepsHalts
  refine fun s => ⟨fun hc => ?_, fun hwf hc => ?_⟩
  · change (if !s.configured then _ else _) = _
    rw [State.configured_eq, hc]
    rfl
  have hframe := mscResetBody_frame s
  have hother (e d) (h : e ≠ s.cfg.mscOut ∨ d ≠ .out) :
      ((mscResetBody s).answer (.code .ok)).epDir e d = (mscFlushed s).epDir e d :=
    (State.answer_epDir ..).trans (mscResetBody_dirsBut s e d h)
  refine ⟨_, exec_mscReset hc, by rw [hframe]; rfl, fun e d => ?_, fun e d hm => ?_, by rw [hframe]; rfl, fun hh => ?_,
    (Flushed.congr rfl (hother _ _ (.inr (by simp)))).2 (mscFlushed_inp s), fun hh => ?_,
    fun hh => ⟨mscFlushed s, mscFlushed_cfg s, mscFlushed_out s, (mscResetBody_offers hc hh).answer _⟩,
    by rw [hframe]; rfl, sameMemory_of (by rw [hframe]; rfl), ?_⟩
  · rw [State.answer_epDir, mscResetBody_halted hc]
  · have hno := mt (s.isMsc_iff e d).2 (by simp [hm])
    rw [hother _ _ (not_and_or.1 (not_or.1 hno).2), mscFlushed_other hm]
  · obtain ⟨hbd, -⟩ := mscResetBody_offers hc hh
    obtain ⟨-, -, -, -, -, -, htog, -⟩ := mscFlushed_out s
    rw [State.nextBuf, mscFlushed_cfg, (mscFlushed_out s).active (mscFlushed_cfg s) hh, htog] at hbd
    rw [State.answer_epDir, hbd]
  · exact ((Flushed.congr rfl (by rw [mscResetBody_of_halted hh])).2 (mscFlushed_out s)).answer _
  · rw [hframe]; rfl

end Sys2Proof.Machine
end

section
/-! # The requests (42_request_dispatch.md)

A request row runs one disposition (O53), or a command and then the status stage or `REJECT` (O54, O55). -/

namespace Sys2Proof.Machine

/-! ## What an oracle answers -/

theorem exec_getDescriptor_none {s : State} {ty ix : Byte} {lang : BitVec 16}
    (h : s.cfg.descriptor ty ix lang = none) (len : BitVec 16) :
    exec (.getDescriptor ty ix lang len) s = exec .reject s := by
  change execGetDescriptor ty ix lang len s = _
  rw [execGetDescriptor, h]
  rfl

theorem exec_getDescriptor_some {s : State} {ty ix : Byte} {lang : BitVec 16} {a n : Nat}
    (h : s.cfg.descriptor ty ix lang = some (a, n)) (len : BitVec 16) :
    exec (.getDescriptor ty ix lang len) s = exec (.startControlReturn a n len.toNat) s := by
  change execGetDescriptor ty ix lang len s = _
  rw [execGetDescriptor, h]
  rfl

theorem exec_getMaxLun (s : State) (v : BitVec 16) :
    exec (.getMaxLun v) s = dispose (s.cfg.dispatchOf (getMaxLunPacket s.cfg v)) s := rfl

theorem exec_setupRequest (s : State) (p : SetupPacket) :
    exec (.setup .request p) s = dispose (s.cfg.dispatchOf p) s := rfl

theorem dispose_eq (x : Disposition) (s : State) : dispose x s = match x with
    | .controlReturn a n r => exec (.startControlReturn a n r) s
    | .receive b n k => exec (.startReceive b n k) s
    | .accept k => exec (.accept k) s
    | .reject => exec .reject s := by cases x <;> rfl

/-- Settles O53: each row runs the disposition of its oracle, and a control return is O22 and O23. -/
theorem oracleRequestsComplete : Obligations.OracleRequestsComplete := by
  unfold Obligations.OracleRequestsComplete
  refine ⟨fun s => ⟨fun ty ix lang len h => exec_getDescriptor_none h len,
    fun v => (exec_getMaxLun s v).trans (dispose_eq ..), fun p => (exec_setupRequest s p).trans (dispose_eq ..)⟩,
    fun s i a n r hwf hs hi ho hans => ?_⟩
  have hexec : exec i s = exec (.startControlReturn a n r) s := by
    obtain ⟨ty, ix, lang, len, rfl, rfl, h⟩ | ⟨v, rfl, h⟩ | ⟨p, rfl, h⟩ := hans
    · exact exec_getDescriptor_some h len
    · exact (exec_getMaxLun s v).trans (congrArg (dispose · s) h)
    · exact (exec_setupRequest s p).trans (congrArg (dispose · s) h)
  rw [hexec]
  refine ⟨?_, fun h0 hr hsrc hdst => ?_⟩
  · rintro rfl
    obtain ⟨t, hacc, hret, hstage, habove, hmem, -⟩ := acceptArmsStatusStage s none hs hi ho
    exact ⟨t, hret rfl a n, hacc, hstage, habove, hmem⟩
  · have hnext := exec_startControlReturn_ok hs hr h0 hsrc hdst
    obtain ⟨hin, -, -⟩ := returnSent_dirs hi ho a n r
    have hcs : ((returnSent s a n r).answer (.code .ok)).cs = (returnOpened s a n r).cs.chunkSent s.cfg.mps0 := by
      rw [State.answer_cs, returnSent_frame]
    refine ⟨_, hnext, hnext, ?_, ?_, ?_, hin.answer _⟩
    · rw [State.answer_cteState, returnSent_frame]
    · rw [hcs, returnOpened_chunkSent]
    · rw [hcs, returnOpened_chunkSent]

/-! ## A command, then the status stage -/

section
variable {s u : State}

/-- A command before the status stage: what the engine needs is as it was. -/
structure KeepsRequest (s u : State) : Prop where
  cteState : u.cteState = s.cteState
  cs : u.cs = s.cs
  cfg : u.cfg = s.cfg
  dirs : ∀ d, u.epDir 0 d = s.epDir 0 d

/-- What `ACCEPT` makes of the state a command left. -/
structure Accepted (s u t : State) : Prop where
  stage : StatusStage s t none
  above : SameAboveZero u t
  frame : t = { u with eps := t.eps, cs := t.cs, cteState := .status, ep0Hold := false, lentSession := (0, 0)
                       reply := some (.code .ok) }

theorem acceptIfOk_accepted (hs : s.cteState = .setupReceived) (hi : s.clear 0 .inp) (ho : s.clear 0 .out)
    (h : KeepsRequest s u) : ∃ t, acceptIfOk .ok (.next u) s = .next t ∧ Accepted s u t := by
  obtain ⟨hstage, habove⟩ :=
    acceptBody_statusStage ⟨h.cfg, h.dirs .inp⟩ ⟨h.cfg, h.dirs .out⟩ h.cs hi ho none
  refine ⟨_, exec_accept (h.cteState.trans hs) none, hstage, habove, ?_⟩
  rw [acceptBody_frame]
  rfl

theorem onRequest_received (hs : s.cteState = .setupReceived) (f : Res) : onRequest s f = f :=
  if_neg (not_not.2 hs)

theorem acceptIfOk_rejected {r : ResultCode} (h : r ≠ .ok) (f : Res) : acceptIfOk r f s = exec .reject s := if_neg h

/-- A request row runs the command of its rule, then the status stage or `REJECT`. -/
theorem request_follows {command request : Instr} {r : ResultCode} {done : Res} {p : Prop}
    (hs : s.cteState = .setupReceived) (hi : s.clear 0 .inp) (ho : s.clear 0 .out)
    (hcommand : exec command s = if r = .ok then answerOk done else answerCode s r)
    (hrequest : exec request s = acceptIfOk r done s) (hkeeps : p → ∀ u, done = .next u → KeepsRequest s u) :
    (∀ u, exec command s = .next u → u.reply = some (.code .ok) → p →
      ∃ t, exec request s = .next t ∧ Accepted s u t) ∧
    ∀ u r', exec command s = .next u → u.reply = some (.code r') → r' ≠ .ok → exec request s = exec .reject s := by
  rw [hcommand, hrequest]
  by_cases hr : r = .ok
  · subst hr
    rw [if_pos rfl]
    refine ⟨fun u hu _ hp => ?_, fun u r' hu hreply hne => ?_⟩
    · obtain ⟨v, hv, hans⟩ := thenRun_next hu
      obtain rfl := answerCode_next hans
      obtain ⟨t, ht, hacc⟩ := acceptIfOk_accepted hs hi ho (hkeeps hp v hv)
      exact ⟨t, hv ▸ ht, hacc.stage, fun e d h0 => (hacc.above e d h0).trans (State.answer_epDir ..).symm, hacc.frame⟩
    · obtain ⟨v, hv, hans⟩ := thenRun_next hu
      obtain rfl := answerCode_next hans
      exact absurd (by simpa using hreply.symm) hne
  · rw [if_neg hr]
    refine ⟨fun u hu hreply => absurd (answerCode_reply_ok hu hreply) hr, fun _ _ _ _ _ => acceptIfOk_rejected hr _⟩

end

/-! ## The commands of the requests keep what the engine needs -/

section
variable {s t u : State} {e : EpNum} {d : Dir}

theorem keepsRequest_setAddressBody (s : State) (a : Nat) : KeepsRequest s (setAddressBody s a) := by
  refine ⟨?_, ?_, ?_, fun d => epDir_congr ?_ _ _⟩ <;> rw [setAddressBody_frame]

theorem keepsRequest_setConfigBody (hwf : s.cfg.wf = true) {v : Nat} (hr : setConfigResult s v = .ok) :
    KeepsRequest s (setConfigBody s v) := by
  refine ⟨?_, ?_, ?_, fun d => ?_⟩
  · rw [setConfigBody_ok_frame hr]
  · rw [setConfigBody_ok_frame hr]
  · rw [setConfigBody_ok_frame hr]
  · rw [setConfigBody_epDir hr (.inl (Config.wf_mscOut hwf).1.symm), configSelected_epDir_zero]

theorem keepsRequest_setHaltIn (h0 : e ≠ 0) : KeepsRequest s (setHaltIn s .command e d) := by
  refine ⟨?_, ?_, ?_, fun d' => setHaltIn_epDir_ne _ _ _ _ (.inl h0.symm)⟩ <;> rw [setHaltIn_frame]

theorem keepsRequest_mscResetBody (hwf : s.cfg.wf = true) : KeepsRequest s (mscResetBody s) := by
  refine ⟨?_, ?_, ?_, fun d => ?_⟩
  · rw [mscResetBody_frame]
  · rw [mscResetBody_frame]
  · rw [mscResetBody_frame]
  · rw [mscResetBody_dirsBut s 0 d (.inl (Config.wf_mscOut hwf).1.symm), mscFlushed_other (isMsc_zero hwf d)]

/-- The CSW goes out on bulk IN; no other direction changes. -/
theorem sendCsw_dirsBut (h : sendCsw s = .next t) : SameDirsBut s t s.cfg.mscIn .inp := by
  obtain ⟨-, -, ⟨-, rfl⟩ | ⟨-, rfl⟩⟩ := sendCsw_next h
  · exact fun e d _ => State.setMsc_epDir ..
  · exact sameDirsBut_of_armIn (v := cswStored s) rfl (cswOffered_eps s)

theorem reoffered_dirsBut (s : State) (d : Dir) : SameDirsBut s (reoffered s d) s.cfg.mscOut .out := by
  cases d with
  | out => exact armOut_dirsBut s
  | inp => exact fun _ _ _ => rfl

/-- `MSC_HALT_CLEARED` touches the bulk directions only. -/
theorem haltCleared_other {d' : Dir} (h : haltCleared s d' = .next t) (hm : s.isMsc e d = false) :
    t.epDir e d = s.epDir e d := by
  obtain ⟨hin, hout⟩ := ne_of_not_isMsc hm
  have hre := reoffered_dirsBut s d' e d hout
  rw [haltCleared_eq] at h
  split at h
  · have hcfg : (reoffered s d').cfg = s.cfg := by rw [reoffered_frame]
    rw [sendCsw_dirsBut h e d (by rwa [hcfg]), hre]
  · cases h; exact hre

theorem clearHaltBody_other {e' : EpNum} {d' : Dir} (h : clearHaltBody s e d = .next t) (hm : s.isMsc e' d' = false)
    (hne : e' ≠ e ∨ d' ≠ d) : t.epDir e' d' = s.epDir e' d' := by
  by_cases hk : (s.epDir e d).halted = false ∨ s.isMsc e d = true ∧ s.msc.state = .nrr
  · rw [clearHaltBody_keeps hk] at h
    cases h; rfl
  · obtain ⟨hh, hn⟩ := not_or.1 hk
    have hst := clearHaltStore_dirsBut s e d e' d' hne
    rw [clearHaltBody_releases (by simpa using hh) hn] at h
    split at h
    · exact (haltCleared_other (s := clearHaltStore s e d) h hm).trans hst
    · cases h; exact hst

theorem keepsRequest_clearHaltBody (hwf : s.cfg.wf = true) (h0 : e ≠ 0) (h : clearHaltBody s e d = .next u) :
    KeepsRequest s u := by
  have hframe : BulkFrame s u := (bulkRun_clearHaltBody h).frame
  exact ⟨by rw [hframe], by rw [hframe], by rw [hframe],
    fun d' => clearHaltBody_other h (isMsc_zero hwf d') (.inl h0.symm)⟩

end

/-! ## `SET_ADDRESS` and `SET_CONFIGURATION` -/

section
variable {s : State}

theorem exec_setAddress (s : State) (v x : BitVec 16) : exec (.setAddress v x) s =
    onRequest s (acceptIfOk (setAddressResult s (v.extractLsb' 0 7).toNat)
      (.next (setAddressBody s (v.extractLsb' 0 7).toNat)) s) := rfl

theorem exec_setConfiguration (s : State) (v x : BitVec 16) : exec (.setConfiguration v x) s =
    onRequest s (acceptIfOk (setConfigResult s (v.extractLsb' 0 8).toNat)
      (.next (setConfigBody s (v.extractLsb' 0 8).toNat)) s) := rfl

theorem setAddressBody_dev (hs : s.cteState = .setupReceived) (a : BitVec 7) :
    setAddressResult s a.toNat = .ok ∧
      setAddressBody s a.toNat = { s with dev := { s.dev with pendingAddress := a, pendingValid := true } } := by
  have hr : setAddressResult s a.toNat = .ok := by
    rw [setAddressResult_received hs, if_neg (by have := a.isLt; omega)]
  refine ⟨hr, ?_⟩
  rw [setAddressBody, if_pos hr, BitVec.ofNat_toNat, BitVec.setWidth_eq]
  rfl

end

/-- Settles O54: the command (O27, O28), then the status stage. -/
theorem deviceRequestsComplete : Obligations.DeviceRequestsComplete := by
  unfold Obligations.DeviceRequestsComplete
  intro s v x hwf hs hi ho
  refine ⟨?_, fun hv => ?_, fun h0 hmem => ?_⟩
  · obtain ⟨hr, hbody⟩ := setAddressBody_dev hs (v.extractLsb' 0 7)
    obtain ⟨t, ht, hacc⟩ := acceptIfOk_accepted hs hi ho (keepsRequest_setAddressBody s (v.extractLsb' 0 7).toNat)
    have hframe := hacc.frame
    have habove := hacc.above
    rw [hbody] at hframe habove
    refine ⟨t, ?_, hacc.stage, by rw [hframe], habove, sameMemory_of (by rw [hframe]), ?_⟩
    · rw [exec_setAddress, onRequest_received hs, hr, ht]
    · rw [hframe]
  · have hr := (setConfigResult_byte hs).2 hv
    obtain ⟨t, ht, hacc⟩ := acceptIfOk_accepted hs hi ho (keepsRequest_setConfigBody hwf hr)
    have hframe := hacc.frame
    rw [setConfigBody_ok_frame hr] at hframe
    have hnat : BitVec.ofNat 8 (v.extractLsb' 0 8).toNat = v.extractLsb' 0 8 := by
      rw [BitVec.ofNat_toNat, BitVec.setWidth_eq]
    rw [hnat] at hframe
    refine ⟨_, t, ?_, exec_devSetConfig_ok hr, ?_, hacc.stage, by rw [hframe], by rw [hframe],
      sameMemory_of (by rw [hframe]), ?_⟩
    · rw [exec_setConfiguration, onRequest_received hs, hr, ht]
    · exact fun e d he => (hacc.above e d he).trans (State.answer_epDir ..).symm
    · rw [setConfigBody_ok_frame hr, hframe]
      rfl
  · have hr : setConfigResult s (v.extractLsb' 0 8).toNat ≠ .ok :=
      fun h => ((setConfigResult_byte hs).1 h).elim h0 hmem
    rw [exec_setConfiguration, onRequest_received hs, acceptIfOk_rejected hr]

/-! ## The halt requests and the Bulk-Only Mass Storage Reset -/

section
variable {s : State}

theorem wIndexEp_eq (x : BitVec 16) : wIndexEp x = Fin.ofNat 16 (x.toNat % 16) := by simp [wIndexEp]

theorem exec_setFeatureEndpointHalt (hs : s.cteState = .setupReceived) (x : BitVec 16) :
    exec (.setFeatureEndpointHalt x) s = acceptIfOk (setHaltResult s .command (wIndexEp x) (wIndexDir x))
      (.next (setHaltIn s .command (wIndexEp x) (wIndexDir x))) s := onRequest_received hs _

theorem exec_clearFeatureEndpointHalt (hs : s.cteState = .setupReceived) (x : BitVec 16) :
    exec (.clearFeatureEndpointHalt x) s =
      acceptIfOk (clearHaltResult s (wIndexEp x)) (clearHaltBody s (wIndexEp x) (wIndexDir x)) s :=
  onRequest_received hs _

theorem exec_bulkOnlyMassStorageReset (hs : s.cteState = .setupReceived) (hc : s.dev.configurationValue ≠ 0) :
    exec .bulkOnlyMassStorageReset s = acceptIfOk .ok (.next (mscResetBody s)) s := by
  change onRequest s (acceptIfOk (if s.configured then .ok else .errNotConfigured) _ s) = _
  rw [onRequest_received hs, State.configured_of hc, if_pos rfl]

theorem exec_setHalt_cases (s : State) (e : EpNum) (d : Dir) : exec (.setHalt e d) s =
    if setHaltResult s .command e d = .ok then answerOk (.next (setHaltIn s .command e d))
    else answerCode s (setHaltResult s .command e d) := by
  rw [exec_setHalt]
  split
  · next h => rw [h]; rfl
  · next h => rw [setHaltIn, if_neg h]

theorem exec_clearHalt_cases (s : State) (e : EpNum) (d : Dir) : exec (.clearHalt e d) s =
    if clearHaltResult s e = .ok then answerOk (clearHaltBody s e d) else answerCode s (clearHaltResult s e) := by
  rw [exec_clearHalt_eq, onEndpoint_val]

end

theorem State.not_busy_of {s : State} {e : EpNum} {d : Dir}
    (h : s.isMsc e d = false ∨ (s.msc.state ≠ .dataIn ∧ s.msc.state ≠ .dataOut)) : ¬s.busy e d := by
  rintro ⟨hm, hdata⟩
  obtain h | ⟨h1, h2⟩ := h
  · simp [h] at hm
  · exact ((s.inDataPhase_iff).1 hdata).elim h1 h2

/-- Settles O55: each request follows its command (`request_follows`), whose effect O18, O19 and O35 tell. -/
theorem haltRequestsComplete : Obligations.HaltRequestsComplete := by
  unfold Obligations.HaltRequestsComplete
  intro s x hwf hs hi ho hc
  rw [← wIndexEp_eq]
  intro e d othersKept follows
  obtain ⟨hsetOk, hsetRejected⟩ := request_follows hs hi ho (exec_setHalt_cases s e d)
    (exec_setFeatureEndpointHalt hs x) (p := e ≠ 0) fun h0 u hu => by cases hu; exact keepsRequest_setHaltIn h0
  obtain ⟨hclearOk, hclearRejected⟩ := request_follows hs hi ho (exec_clearHalt_cases s e d)
    (exec_clearFeatureEndpointHalt hs x) (p := e ≠ 0) fun h0 u hu => keepsRequest_clearHaltBody hwf h0 hu
  have hkept {u t : State} (hd : SameDirsBut s u e d) (ha : SameAboveZero u t) : othersKept t :=
    fun e' d' h0 hne => (ha e' d' h0).trans (hd e' d' hne)
  refine ⟨⟨fun u hu hreply h0 => ?_, hsetRejected⟩, ⟨fun u hu hreply h0 => ?_, hclearRejected⟩,
    fun h0 he hbusy hh => ?_, fun h0 he hm hh => ?_, ?_⟩
  · obtain ⟨t, ht, hacc⟩ := hsetOk u hu hreply h0
    exact ⟨t, ht, hacc.stage, hacc.above, hacc.frame⟩
  · obtain ⟨t, ht, hacc⟩ := hclearOk u hu hreply h0
    exact ⟨t, ht, hacc.stage, hacc.above, hacc.frame⟩
  · obtain ⟨u, hu, hhalts, -, -, hdirs, hmem, hframe⟩ := exec_setHalt_next he h0 hc (State.not_busy_of hbusy) hh
    obtain ⟨t, ht, hacc⟩ := hsetOk u hu (by rw [hframe]) h0
    refine ⟨t, ht, hacc.stage, (Halts.congr rfl rfl (hacc.above e d h0)).2 hhalts, hkept hdirs hacc.above, ?_, ?_⟩
    · exact sameMemory_of (by rw [hacc.frame, hframe])
    · rw [hacc.frame, hframe]
  · have hu := exec_clearHalt_next he (.inr hc) (d := d)
      ((clearHaltBody_releases hh (by simp [hm])).trans (by rw [hm]; rfl))
    obtain ⟨t, ht, hacc⟩ := hclearOk _ hu rfl h0
    refine ⟨t, ht, hacc.stage, ?_, hkept ((clearHaltStore_dirsBut s e d).answer _) hacc.above,
      sameMemory_of (by rw [hacc.frame]; rfl), by rw [hacc.frame]; rfl⟩
    exact (clearHaltStore_releases s e d).congr ((hacc.above e d h0).trans (State.answer_epDir ..))
  · obtain ⟨t, ht, hacc⟩ := acceptIfOk_accepted hs hi ho (keepsRequest_mscResetBody hwf)
    have hframe := hacc.frame
    rw [mscResetBody_frame] at hframe
    refine ⟨_, t, (exec_bulkOnlyMassStorageReset hs hc).trans ht, exec_mscReset hc, fun e' d' h' => ?_, hacc.stage,
      by rw [hframe], sameMemory_of (by rw [hframe]), ?_⟩
    · exact (hacc.above e' d' h').trans (State.answer_epDir ..).symm
    · rw [mscResetBody_frame, hframe]
      rfl

end Sys2Proof.Machine
end

section
/-! # SCSI commands given by themselves, and the rows of outputs and queries

What each command's evaluator answers (44_scsi.md R221 to R232): O57, O58, O59; and O36. -/

namespace Sys2Proof.Machine

section
variable {s : State}

/-- The reply of a command rule run by itself. -/
def EvalOut.answered (r : EvalOut) : State := r.s.answer (.eval r.intent r.dlen r.ok)

theorem runCdb_idle (hc : s.dev.configurationValue ≠ 0) (hs : s.msc.state = .idle) (cmd : ScsiCmd) :
    runCdb cmd s = .next (evalCmd cmd s).answered := by
  rw [runCdb, State.configured_of hc, if_neg (by decide), if_neg (not_not.2 hs)]
  rfl

/-! ## What the evaluators answer -/

theorem evalFail_answered (u : State) (r : SenseReason) : (evalFail u r).answered =
    { u with sense := u.cfg.sense r, reply := some (.eval .none 0 false) } := rfl

theorem evalTestUnitReady_eq (s : State) : evalTestUnitReady s =
    if (s.drvOf s.msc.lun).ready then ⟨askReady s s.msc.lun, .none, 0, true⟩
    else evalFail (askReady s s.msc.lun) .notReady := rfl

theorem evalStartStopUnit_eq (s : State) (st ej : Bool) : evalStartStopUnit s st ej =
    if (s.drvOf s.msc.lun).startStopOk then ⟨s.emit (.drvStartStop s.msc.lun st ej), .none, 0, true⟩
    else evalFail (s.emit (.drvStartStop s.msc.lun st ej)) .startStopFailed := rfl

theorem evalRequestSense_eq (s : State) : evalRequestSense s =
    ⟨if s.cfg.senseClearOnRead then (respond s (senseBytes s.sense)).setSense ⟨0, 0⟩
      else respond s (senseBytes s.sense), .inp, 18, true⟩ := rfl

theorem sizeAsked_eq (s : State) : sizeAsked s =
    { s with outputs := s.outputs ++ [.drvUnitReady s.msc.lun, .drvGetInfo s.msc.lun]
             msc := { s.msc with blockSize :=
               s.msc.blockSize.set s.msc.lun.val (s.drvOf s.msc.lun).blockSize s.msc.lun.isLt } } := by
  have h : s.outputs ++ [.drvUnitReady s.msc.lun, .drvGetInfo s.msc.lun] =
      s.outputs ++ [.drvUnitReady s.msc.lun] ++ [.drvGetInfo s.msc.lun] := by simp
  rw [h]
  rfl

theorem evalReadCapacity10_eq (s : State) : evalReadCapacity10 s =
    if !(s.drvOf s.msc.lun).ready then evalFail (askReady s s.msc.lun) .notReady
    else if (s.drvOf s.msc.lun).count = 0 ∨ (s.drvOf s.msc.lun).blockSize = 0 then evalFail (sizeAsked s) .notReady
    else ⟨respond (sizeAsked s)
      (be32 (lastBlock (s.drvOf s.msc.lun).count) ++ be32 (s.drvOf s.msc.lun).blockSize), .inp, 8, true⟩ := rfl

theorem evalRead10_eq (s : State) (lba : BitVec 32) (blocks : BitVec 16) : evalRead10 s lba blocks =
    if blocks = 0 then ⟨s, .none, 0, true⟩
    else if !(s.drvOf s.msc.lun).ready then evalFail (askReady s s.msc.lun) .notReady
    else if (s.drvOf s.msc.lun).blockSize = 0 ∨ lba.toNat + blocks.toNat > (s.drvOf s.msc.lun).count then
      evalFail (sizeAsked s) .lbaOutOfRange
    else ⟨(sizeAsked s).setMsc { (sizeAsked s).msc with txSrc := .driver }, .inp,
      blocks.toNat * (s.drvOf s.msc.lun).blockSize.toNat, true⟩ := rfl

theorem evalWrite10_eq (s : State) (lba : BitVec 32) (blocks : BitVec 16) : evalWrite10 s lba blocks =
    if blocks = 0 then ⟨s, .none, 0, true⟩
    else if !(s.drvOf s.msc.lun).ready then evalFail (askReady s s.msc.lun) .notReady
    else if (s.drvOf s.msc.lun).writeProtect then evalFail (sizeAsked s) .writeProtected
    else if (s.drvOf s.msc.lun).blockSize = 0 ∨ lba.toNat + blocks.toNat > (s.drvOf s.msc.lun).count then
      evalFail (sizeAsked s) .lbaOutOfRange
    else ⟨sizeAsked s, .out, blocks.toNat * (s.drvOf s.msc.lun).blockSize.toNat, true⟩ := rfl

end

/-- Settles O57: the three evaluators that move no data. -/
theorem commandsWithoutData : Obligations.CommandsWithoutData := by
  unfold Obligations.CommandsWithoutData
  refine ⟨by decide, fun s hc hs => ⟨?_, fun st ej => ?_, fun op => ?_⟩⟩
  · change runCdb .testUnitReady s = _
    rw [runCdb_idle hc hs, evalCmd, evalTestUnitReady_eq]
    cases (s.drvOf s.msc.lun).ready <;> rfl
  · change runCdb (.startStopUnit st ej) s = _
    rw [runCdb_idle hc hs, evalCmd, evalStartStopUnit_eq]
    cases (s.drvOf s.msc.lun).startStopOk <;> rfl
  · exact runCdb_idle hc hs (.unknown op)

/-- Settles O58: the response each evaluator writes, and the failures of `READ_CAPACITY_10`. -/
theorem commandsAnsweredFromResponse : Obligations.CommandsAnsweredFromResponse := by
  unfold Obligations.CommandsAnsweredFromResponse
  intro s hwf hc hs hresp hl
  refine ⟨?_, ?_, runCdb_idle hc hs .modeSense6, fun hr => ?_, fun hr h0 => ?_, fun hr hcount hsize => ?_⟩
  · change runCdb .inquiry s = _
    have hlen : s.msc.resp.drop (s.cfg.inquiry s.msc.lun).length = [] := by
      rw [Config.wf_inquiry hwf, if_pos hl, ← hresp, List.drop_length]
    rw [runCdb_idle hc hs, evalCmd, evalInquiry, respond, hlen, List.append_nil]
    rfl
  · change runCdb .requestSense s = _
    rw [runCdb_idle hc hs, evalCmd, evalRequestSense_eq]
    cases s.cfg.senseClearOnRead <;> rfl
  · change runCdb .readCapacity10 s = _
    rw [runCdb_idle hc hs, evalCmd, evalReadCapacity10_eq, hr]
    rfl
  · change runCdb .readCapacity10 s = _
    rw [runCdb_idle hc hs, evalCmd, evalReadCapacity10_eq, hr]
    rw [if_neg (by decide), if_pos h0, evalFail_answered, sizeAsked_eq]
  · have h : exec .readCapacity10 s = _ := (runCdb_idle hc hs .readCapacity10)
    rw [evalCmd, evalReadCapacity10_eq, hr] at h
    rw [if_neg (by decide), if_neg (not_or.2 ⟨hcount, hsize⟩), sizeAsked_eq] at h
    refine ⟨fun hle => ?_, ⟨lastBlock (s.drvOf s.msc.lun).count, h⟩⟩
    rw [lastBlock, if_pos hle] at h
    exact h

/-- Settles O59: the checks of `READ_10` and `WRITE_10` in their order. -/
theorem readAndWriteCheckRange : Obligations.ReadAndWriteCheckRange := by
  unfold Obligations.ReadAndWriteCheckRange
  intro s lba blocks hc hs
  have hread : exec (.read10 lba blocks) s = .next (evalRead10 s lba blocks).answered :=
    runCdb_idle hc hs (.read10 lba blocks)
  have hwrite : exec (.write10 lba blocks) s = .next (evalWrite10 s lba blocks).answered :=
    runCdb_idle hc hs (.write10 lba blocks)
  rw [evalRead10_eq] at hread
  rw [evalWrite10_eq] at hwrite
  have hrange {a : DrvAnswers} : (a.blockSize ≠ 0 ∧ lba.toNat + blocks.toNat ≤ a.count) ↔
      ¬(a.blockSize = 0 ∨ lba.toNat + blocks.toNat > a.count) := by rw [not_or, Nat.not_lt]
  refine ⟨fun h0 => ?_, fun h0 hr i hi => ?_, fun h0 hr hin => ?_, fun h0 hr hout => ?_, fun h0 hr hp => ?_⟩
  · rw [if_pos h0] at hread hwrite
    exact ⟨hread, hwrite⟩
  · rw [if_neg h0, hr, if_pos (by decide), evalFail_answered] at hread hwrite
    obtain rfl | rfl := hi
    · exact hread
    · exact hwrite
  · rw [if_neg h0, hr, if_neg (by decide)] at hread hwrite
    rw [hrange] at hin
    rw [if_neg hin, sizeAsked_eq] at hread
    refine ⟨hread, fun hp => ?_⟩
    rw [hp, if_neg (by decide), if_neg hin, sizeAsked_eq] at hwrite
    exact hwrite
  · rw [if_neg h0, hr, if_neg (by decide)] at hread hwrite
    rw [hrange, not_not] at hout
    rw [if_pos hout, evalFail_answered, sizeAsked_eq] at hread
    refine ⟨hread, fun hp => ?_⟩
    rw [hp, if_neg (by decide), if_pos hout, evalFail_answered, sizeAsked_eq] at hwrite
    exact hwrite
  · rw [if_neg h0, hr, if_neg (by decide), hp, if_pos rfl, evalFail_answered, sizeAsked_eq] at hwrite
    exact hwrite

/-! ## Outputs and queries -/

/-- A query row appends its question and lets the answer stand for its logical unit. -/
theorem query_asked {s t : State} {l : Lun} {o : Output} {a : DrvAnswers} (ht : t = (s.emit o).setDrv l a) :
    t.outputs = s.outputs ++ [o] ∧ t.drvOf l = a ∧ (∀ j, j ≠ l → t.drvOf j = s.drvOf j) ∧
      t = { s with outputs := t.outputs, drv := t.drv } := by
  subst ht
  refine ⟨rfl, ?_, fun j hj => ?_, rfl⟩
  · rw [State.setDrv_drvOf, if_pos rfl]
  · rw [State.setDrv_drvOf, if_neg hj]
    rfl

/-- Settles O36: an output row is `emit`, and a query row `query_asked`. -/
theorem outputsAndQueriesAreRecorded : Obligations.OutputsAndQueriesAreRecorded := by
  unfold Obligations.OutputsAndQueriesAreRecorded
  refine fun s => ⟨fun _ => rfl, fun _ _ => rfl, fun _ => rfl, fun _ => rfl, fun _ _ _ => rfl, fun l => ?_⟩
  exact ⟨fun _ _ _ => ⟨_, rfl, query_asked rfl⟩, fun _ => ⟨_, rfl, query_asked rfl⟩,
    fun _ _ _ => ⟨_, rfl, query_asked rfl⟩, fun _ _ _ => ⟨_, rfl, query_asked rfl⟩,
    fun _ _ _ _ _ _ => ⟨_, rfl, query_asked rfl⟩⟩

end Sys2Proof.Machine
end

section
/-! # The channel (40_arbiter.md section 3)

The handshakes, the transactions that are taken, and what the mask holds off: O37 to O41. -/

namespace Sys2Proof.Machine

/-! ## Handshakes of transactions that are not taken -/

section
variable {s : State} {e : EpNum} {d : Dir}

theorem channelIdle_of_fw (h : (s.nextBd e d).owner = .fw) : channelIdle s e d = true := by
  rw [← Bool.not_eq_false, channelIdle_eq_false, h]
  simp

theorem channelIdle_of_held (h : s.ep0Hold = true) : channelIdle s 0 d = true := by
  rw [← Bool.not_eq_false, channelIdle_eq_false]
  simp [h]

theorem outHandshake_nak (h : channelIdle s e .out = true) (tog : Bool) (m : Nat) : outHandshake s e tog m = .nak :=
  if_pos h

theorem inHandshake_nak (h : channelIdle s e .inp = true) : inHandshake s e = .nak := if_pos h

theorem setupHandshake_nak (h : channelIdle s 0 .out = true) (m : Nat) : setupHandshake s m = .nak := if_pos h

theorem outHandshake_stall (h : channelIdle s e .out = false) (hst : (s.nextBd e .out).stall = true) (tog : Bool)
    (m : Nat) : outHandshake s e tog m = .stall := by
  unfold outHandshake
  rw [if_neg (by simp [h])]
  exact if_pos hst

theorem inHandshake_stall (h : channelIdle s e .inp = false) (hst : (s.nextBd e .inp).stall = true) :
    inHandshake s e = .stall := by
  unfold inHandshake
  rw [if_neg (by simp [h])]
  exact if_pos hst

theorem outHandshake_none (h : channelIdle s e .out = false) (hst : (s.nextBd e .out).stall = false) {tog : Bool}
    {m : Nat} (hno : ¬(m ≤ (s.nextBd e .out).count ∧ tog = (s.nextBd e .out).toggle)) :
    outHandshake s e tog m = .none := by
  unfold outHandshake
  rw [if_neg (by simp [h])]
  exact (if_neg (by simpa [State.nextBd] using hst)).trans (if_pos ((not_and_or.1 hno).imp_left Nat.not_le.1))

theorem exec_hwOut (s : State) (e : EpNum) (tog : Bool) (b : List Byte) : exec (.hwOut e tog b) s =
    if outHandshake s e tog b.length = .ack then takeOut s e b
    else .next (notTaken s e .out (outHandshake s e tog b.length)) := rfl

theorem exec_hwIn (s : State) (e : EpNum) : exec (.hwIn e) s =
    if inHandshake s e = .ack then
      readMem s (s.nextBd e .inp).addr (s.nextBd e .inp).count fun bs =>
        .next ((returnDesc s e .inp (s.nextBd e .inp).count).show (.data e (s.nextBd e .inp).toggle bs))
    else .next (notTaken s e .inp (inHandshake s e)) := rfl

theorem exec_hwSetup (s : State) (b : List Byte) : exec (.hwSetup b) s =
    if setupHandshake s b.length = .ack then takeSetup s b
    else .next (notTaken s 0 .out (setupHandshake s b.length)) := rfl

theorem notTaken_show {h : Handshake} (hh : h ≠ .ack) (s : State) (e : EpNum) (d : Dir) :
    ∃ w, notTaken s e d h = { s with wire := s.wire ++ [w] } := by
  cases h with
  | ack => exact absurd rfl hh
  | nak => exact ⟨_, rfl⟩
  | stall => exact ⟨_, rfl⟩
  | none => exact ⟨_, rfl⟩

end

/-- Settles O40: the handshake of each case. -/
theorem channelAnswersStallAndNak : Obligations.ChannelAnswersStallAndNak := by
  unfold Obligations.ChannelAnswersStallAndNak
  intro s e tog payload
  refine ⟨fun hfree => ⟨fun ho hst => ?_, fun ho hst => ?_, fun ho => ?_, fun ho => ?_⟩, fun hheld => ⟨?_, ?_, ?_⟩⟩
  · rw [exec_hwIn, inHandshake_stall ((channelIdle_eq_false ..).2 ⟨ho, hfree⟩) hst]; rfl
  · rw [exec_hwOut, outHandshake_stall ((channelIdle_eq_false ..).2 ⟨ho, hfree⟩) hst]; rfl
  · rw [exec_hwIn, inHandshake_nak (channelIdle_of_fw ho)]; rfl
  · rw [exec_hwOut, outHandshake_nak (channelIdle_of_fw ho)]; rfl
  · rw [exec_hwIn, inHandshake_nak (channelIdle_of_held hheld)]; rfl
  · rw [exec_hwOut, outHandshake_nak (channelIdle_of_held hheld)]; rfl
  · rw [exec_hwSetup, setupHandshake_nak (channelIdle_of_held hheld)]; rfl

/-! ## Transactions that are taken -/

section
variable {s : State} {e : EpNum}

theorem returnDesc_epDir (s : State) (e : EpNum) (p : Pid) (m : Nat) : (returnDesc s e p m).epDir e p.dir =
    (s.epDir e p.dir).returned (s.hw e p.dir) (s.pp e p.dir) m := by
  rw [returnDesc_eq, State.setTcq_epDir]
  exact State.onDir_epDir_same ..

theorem returnDesc_dirsBut (s : State) (e : EpNum) (p : Pid) (m : Nat) :
    SameDirsBut s (returnDesc s e p m) e p.dir := fun e' d' h => by
  rw [returnDesc_eq, State.setTcq_epDir]
  exact State.onDir_epDir_ne _ _ _ _ h

/-- The state after an OUT transaction (R102). -/
def outTaken (s : State) (e : EpNum) (b : List Byte) : State :=
  (returnDesc (s.setMem (Memory.writeBytes s.mem (s.nextBd e .out).addr b)) e .out b.length).show (.ack e .out)

theorem takeOut_ok {b : List Byte} (h : (s.nextBd e .out).addr + b.length ≤ s.cfg.memSize) :
    takeOut s e b = .next (outTaken s e b) := by
  have hw : writeMem s ((s.epDir e .out).bd (s.hw e .out)).addr b = _ := writeMem_ok h
  rw [takeOut, hw]
  rfl

theorem exec_hwOut_ack {tog : Bool} {b : List Byte} (hh : outHandshake s e tog b.length = .ack)
    (h : (s.nextBd e .out).addr + b.length ≤ s.cfg.memSize) :
    exec (.hwOut e tog b) s = .next (outTaken s e b) := by
  rw [exec_hwOut, if_pos hh, takeOut_ok h]

theorem outTaken_epDir (s : State) (e : EpNum) (b : List Byte) : (outTaken s e b).epDir e .out =
    (s.epDir e .out).returned (s.hw e .out) (s.cfg.pingpong e .out) b.length :=
  returnDesc_epDir (s.setMem _) e .out b.length

theorem outTaken_dirsBut (s : State) (e : EpNum) (b : List Byte) : SameDirsBut s (outTaken s e b) e .out :=
  returnDesc_dirsBut (s.setMem _) e .out b.length

theorem outTaken_frame (s : State) (e : EpNum) (b : List Byte) : outTaken s e b =
    { s with
      eps := (outTaken s e b).eps, mem := Memory.writeBytes s.mem (s.nextBd e .out).addr b, tcq := s.tcq ++ [⟨e, .out⟩]
      wire := s.wire ++ [.ack e .out] } := rfl

/-- The state after an IN transaction (R103). -/
def inTaken (s : State) (e : EpNum) : State :=
  (returnDesc s e .inp (s.nextBd e .inp).count).show
    (.data e (s.nextBd e .inp).toggle (s.bytes (s.nextBd e .inp).addr (s.nextBd e .inp).count))

theorem exec_hwIn_ack (hh : inHandshake s e = .ack)
    (h : (s.nextBd e .inp).addr + (s.nextBd e .inp).count ≤ s.cfg.memSize) :
    exec (.hwIn e) s = .next (inTaken s e) := by
  rw [exec_hwIn, if_pos hh, readMem_ok _ h]
  rfl

theorem inTaken_epDir (s : State) (e : EpNum) : (inTaken s e).epDir e .inp =
    (s.epDir e .inp).returned (s.hw e .inp) (s.cfg.pingpong e .inp) (s.nextBd e .inp).count :=
  returnDesc_epDir s e .inp _

theorem inTaken_dirsBut (s : State) (e : EpNum) : SameDirsBut s (inTaken s e) e .inp :=
  returnDesc_dirsBut s e .inp _

end

/-- Settles O37: the handshake, and `outTaken`. -/
theorem hwOutStoresPayload : Obligations.HwOutStoresPayload := by
  unfold Obligations.HwOutStoresPayload
  intro s e tog payload hm
  dsimp only
  refine ⟨fun hno => ?_, fun ⟨ho, hst, hfree⟩ hno => ?_, fun ⟨⟨ho, hst, hfree⟩, hlen, htog⟩ hsp => ?_⟩
  · have hh : outHandshake s e tog payload.length ≠ .ack := fun h => hno (by
      obtain ⟨⟨ho, hfree⟩, hst, hfit⟩ := (outHandshake_ack ..).1 h
      exact ⟨⟨ho, hst, hfree⟩, hfit⟩)
    obtain ⟨w, hw⟩ := notTaken_show hh s e .out
    exact ⟨w, by rw [exec_hwOut, if_neg hh, hw]⟩
  · have hh : outHandshake s e tog payload.length = .none :=
      outHandshake_none ((channelIdle_eq_false ..).2 ⟨ho, hfree⟩) hst fun h => hno ⟨⟨ho, hst, hfree⟩, h⟩
    rw [exec_hwOut, hh]
    rfl
  · have hh := (outHandshake_ack s e tog payload.length).2 ⟨⟨ho, hfree⟩, hst, hlen, htog⟩
    have hst : (outTaken s e payload).mem = Memory.writeBytes s.mem (s.nextBd e .out).addr payload := rfl
    refine ⟨_, exec_hwOut_ack hh hsp, ?_⟩
    rw [outTaken_epDir]
    exact ⟨by simp, by simp, by simp, by simp, by simp, by simp, by simp, by simp, by simp, by simp,
      bytes_of_stored hm hst, sameOutside_of_stored hm hst, outTaken_dirsBut s e payload, rfl⟩

/-- Settles O38: the handshake, and `inTaken`. -/
theorem hwInSendsPacket : Obligations.HwInSendsPacket := by
  unfold Obligations.HwInSendsPacket
  intro s e
  dsimp only
  refine ⟨fun hno => ?_, fun ⟨ho, hst, hfree⟩ hsp => ?_⟩
  · have hh : inHandshake s e ≠ .ack := fun h => hno (by
      obtain ⟨⟨ho, hfree⟩, hst⟩ := (inHandshake_ack ..).1 h
      exact ⟨ho, hst, hfree⟩)
    obtain ⟨w, hw⟩ := notTaken_show hh s e .inp
    exact ⟨w, by rw [exec_hwIn, if_neg hh, hw]⟩
  · have hh := (inHandshake_ack s e).2 ⟨⟨ho, hfree⟩, hst⟩
    refine ⟨_, exec_hwIn_ack hh hsp, rfl, ?_⟩
    rw [inTaken_epDir]
    refine ⟨?_, by simp, by simp, by simp, by simp, by simp, by simp, by simp, by simp, by simp, inTaken_dirsBut s e,
      sameMemory_of rfl, rfl⟩
    simpa [State.nextBd] using hst

/-! ## A SETUP transaction -/

section
variable {s : State} {d : Dir}

/-- A direction of endpoint 0 once its halt is ended: the descriptor the channel looks at is no longer stalled, and
where the direction is double-buffered the next to arm is the other (40_arbiter.md R104). -/
structure HaltEnded (s : State) (d : Dir) (y : EpDir) : Prop where
  halted : y.halted = false
  nextToggle : y.nextToggle = (s.epDir 0 d).nextToggle
  rdIdx : y.rdIdx = (s.epDir 0 d).rdIdx
  hwIdx : y.hwIdx = (s.epDir 0 d).hwIdx
  unread : ∀ j, y.unread j = (s.epDir 0 d).unread j
  rearmed : ∀ j, y.rearmed j = (s.epDir 0 d).rearmed j
  bd : ∀ j, y.bd j =
    if (s.epDir 0 d).halted = true ∧ j = s.hw 0 d then { (s.epDir 0 d).bd j with stall := false }
    else (s.epDir 0 d).bd j
  activeIdx : y.activeIdx =
    if (s.epDir 0 d).halted = true ∧ s.cfg.pingpong 0 d = true then !s.hw 0 d else (s.epDir 0 d).activeIdx

theorem endEp0Halt_ended (s : State) (d : Dir) : HaltEnded s d ((endEp0Halt s d).epDir 0 d) := by
  rw [endEp0Halt_epDir]
  cases hh : (s.epDir 0 d).halted with
  | false => exact ⟨hh, rfl, rfl, rfl, fun _ => rfl, fun _ => rfl, fun _ => by simp [hh], by simp [hh]⟩
  | true =>
    refine ⟨rfl, ?_, ?_, ?_, fun j => ?_, fun j => ?_, fun j => ?_, ?_⟩
    · simp
    · simp
    · simp
    · cases j <;> cases s.hw 0 d <;> rfl
    · cases j <;> cases s.hw 0 d <;> rfl
    · cases j <;> cases s.hw 0 d <;> simp [hh, EpDir.setBd, EpDir.bd]
    · cases hp : s.cfg.pingpong 0 d <;> simp [hh, hp]

/-- A descriptor that may have been unstalled comes back. -/
theorem Desc.giveBack_released (b : Desc) (p : Prop) [Decidable p] :
    (if p then { b with stall := false } else b).giveBack =
      { b with owner := .fw, stall := if b.owner = .hw ∨ p then false else b.stall } := by
  obtain ⟨a, c, o, tog, st⟩ := b
  by_cases hp : p
  · cases o <;> simp [Desc.giveBack, hp]
  · cases o <;> simp [Desc.giveBack, hp]

theorem setupTaken_epDir_out (s : State) : (setupTaken s).epDir 0 .out = (endEp0Halt s .out).epDir 0 .out := by
  rw [setupTaken, State.setHold_epDir, cancel_epDir_ne _ _ _ (.inr (by simp)), endEp0Halt_other _ _ (.inr (by simp))]

/-- IN is withdrawn once its halt is ended. -/
theorem setupTaken_inp (s : State) : ∃ y, HaltEnded s .inp y ∧ (setupTaken s).epDir 0 .inp = y.cancel := by
  have hdir : (endEp0Halt s .out).epDir 0 .inp = s.epDir 0 .inp := endEp0Halt_other _ _ (.inr (by simp))
  have hend := endEp0Halt_ended (endEp0Halt s .out) .inp
  have hcfg : (endEp0Halt s .out).cfg = s.cfg := by rw [endEp0Halt_frame]
  have hhw : (endEp0Halt s .out).hw 0 .inp = s.hw 0 .inp := State.hw_congr hcfg hdir
  refine ⟨_, ?_, by rw [setupTaken, State.setHold_epDir, cancel_epDir]⟩
  obtain ⟨h1, h2, h3, h4, h5, h6, h7, h8⟩ := hend
  rw [hdir] at *
  rw [hcfg, hhw] at h8
  rw [hhw] at h7
  exact ⟨h1, h2, h3, h4, h5, h6, h7, h8⟩

theorem setupTaken_out (s : State) : HaltEnded s .out ((setupTaken s).epDir 0 .out) := by
  rw [setupTaken_epDir_out]
  exact endEp0Halt_ended s .out

theorem setupTaken_aboveZero (s : State) : SameAboveZero s (setupTaken s) := fun e d h => by
  rw [setupTaken, State.setHold_epDir, cancel_epDir_ne _ _ _ (.inl h), endEp0Halt_other _ _ (.inl h),
    endEp0Halt_other _ _ (.inl h)]

/-- The state after a SETUP transaction (R104). -/
def setupStored (s : State) (b : List Byte) : State :=
  (returnDesc ((setupTaken s).setMem (Memory.writeBytes s.mem (s.nextBd 0 .out).addr b)) 0 .setup b.length).show
    (.ack 0 .setup)

theorem setupTaken_cfg (s : State) : (setupTaken s).cfg = s.cfg := by rw [setupTaken_frame]

theorem setupTaken_hw_out (s : State) : (setupTaken s).hw 0 .out = s.hw 0 .out := by
  unfold State.hw State.pp
  rw [setupTaken_cfg, (setupTaken_out s).hwIdx]

theorem setupTaken_addr (s : State) : ((setupTaken s).nextBd 0 .out).addr = (s.nextBd 0 .out).addr := by
  rw [State.nextBd, setupTaken_hw_out, (setupTaken_out s).bd]
  split <;> rfl

theorem takeSetup_ok {b : List Byte}
    (h : (s.nextBd 0 .out).addr + b.length ≤ s.cfg.memSize) : takeSetup s b = .next (setupStored s b) := by
  have hw : writeMem (setupTaken s) ((setupTaken s).nextBd 0 .out).addr b =
      .next ((setupTaken s).setMem (Memory.writeBytes s.mem (s.nextBd 0 .out).addr b)) := by
    rw [setupTaken_addr, writeMem_ok (by rwa [setupTaken_cfg])]
    rw [setupTaken_frame]
  change thenRun (writeMem (setupTaken s) ((setupTaken s).nextBd 0 .out).addr b) _ = _
  rw [hw]
  rfl

theorem setupStored_epDir_out (s : State) (b : List Byte) : (setupStored s b).epDir 0 .out =
    ((setupTaken s).epDir 0 .out).returned (s.hw 0 .out) (s.cfg.pingpong 0 .out) b.length := by
  have h := returnDesc_epDir ((setupTaken s).setMem (Memory.writeBytes s.mem (s.nextBd 0 .out).addr b)) 0 .setup b.length
  have hhw : ((setupTaken s).setMem (Memory.writeBytes s.mem (s.nextBd 0 .out).addr b)).hw 0 .out = s.hw 0 .out :=
    setupTaken_hw_out s
  have hpp : ((setupTaken s).setMem (Memory.writeBytes s.mem (s.nextBd 0 .out).addr b)).pp 0 .out =
      s.cfg.pingpong 0 .out := congrArg (fun c : Config => c.pingpong 0 .out) (setupTaken_cfg s)
  rw [setupStored, State.show_epDir]
  rw [Pid.dir, hhw, hpp] at h
  exact h

theorem setupStored_dirsBut (s : State) (b : List Byte) : SameDirsBut (setupTaken s) (setupStored s b) 0 .out :=
  returnDesc_dirsBut ((setupTaken s).setMem _) 0 .setup b.length

theorem setupStored_frame (s : State) (b : List Byte) : setupStored s b =
    { s with
      eps := (setupStored s b).eps, mem := Memory.writeBytes s.mem (s.nextBd 0 .out).addr b, ep0Hold := true
      tcq := s.tcq ++ [⟨0, .setup⟩], wire := s.wire ++ [.ack 0 .setup] } := by
  unfold setupStored
  rw [setupTaken_frame]
  rfl

end

/-- Settles O39: both halts are ended and IN withdrawn (`setupTaken`), and the packet is stored. -/
theorem hwSetupAlwaysLands : Obligations.HwSetupAlwaysLands := by
  unfold Obligations.HwSetupAlwaysLands
  intro s payload hm hfree
  dsimp only
  intro ho hlen hsp
  have hh := (setupHandshake_ack s payload.length).2 ⟨⟨ho, hfree⟩, hlen⟩
  have hexec : exec (.hwSetup payload) s = .next (setupStored s payload) := by
    rw [exec_hwSetup, if_pos hh, takeSetup_ok hsp]
  obtain ⟨y, hy, hinp⟩ := setupTaken_inp s
  have hdirs := setupStored_dirsBut s payload
  have hinp' : (setupStored s payload).epDir 0 .inp = y.cancel := (hdirs _ _ (.inr (by simp))).trans hinp
  have hout := setupTaken_out s
  have hmem : (setupStored s payload).mem = Memory.writeBytes s.mem (s.nextBd 0 .out).addr payload := by
    rw [setupStored_frame]
  refine ⟨_, hexec, fun d => ?_, fun j => ?_, ?_, ?_, ?_, ?_, ?_, fun j => ?_, ?_, ?_, ?_, bytes_of_stored hm hmem,
    sameOutside_of_stored hm hmem, fun e d h0 => ?_, setupStored_frame s payload⟩
  · cases d with
    | out =>
      rw [setupStored_epDir_out]
      simp [hout.halted, hout.nextToggle, hout.rdIdx, hout.rearmed]
    | inp =>
      rw [hinp']
      simp [hy.halted, hy.nextToggle, hy.rdIdx, hy.rearmed]
  · rw [hinp', EpDir.cancel_bd, hy.bd, Desc.giveBack_released]
  · rw [hinp', EpDir.cancel_activeIdx, hy.hwIdx]
  · rw [setupStored_epDir_out]
    simp only [EpDir.returned_bd, EpDir.setBd_bd_same, hout.bd]
    split <;> rfl
  · rw [setupStored_epDir_out]
    simp [hout.bd]
  · rw [setupStored_epDir_out]
    simp
  · rw [setupStored_epDir_out]
    simp [hout.unread]
  · rw [hinp', EpDir.cancel_unread, hy.unread]
  · rw [hinp', EpDir.cancel_hwIdx, hy.hwIdx]
  · rw [setupStored_epDir_out, EpDir.returned_activeIdx, hout.activeIdx]
  · rw [setupStored_epDir_out, EpDir.returned_hwIdx, hout.hwIdx]
  · exact (hdirs e d (.inl h0)).trans (setupTaken_aboveZero s e d h0)

/-! ## The critical section -/

section
variable {s : State} {x : Tc}

theorem consumeTc_masked (h : s.tcIrqEn = false) (x : Tc) : consumeTc x s = .next s := if_pos h

theorem consumeTc_empty (h : s.tcq = []) (x : Tc) : consumeTc x s = .next s := by
  unfold consumeTc
  rw [h]
  split <;> rfl

theorem consumeTc_notHead {y : Tc} {rest : List Tc} (hi : s.tcIrqEn = true) (hq : s.tcq = y :: rest) (hne : y ≠ x) :
    consumeTc x s = .refused .notHeadOfQueue := by
  unfold consumeTc
  rw [if_neg (by simp [hi]), hq]
  exact if_neg hne

/-- The row a record selects consumes that record. -/
theorem exec_instrOfTc (hx : x.pid = .setup → x.e = 0) : exec (instrOfTc s.cfg x) s = consumeTc x s := by
  obtain ⟨e, p⟩ := x
  cases p with
  | setup =>
    obtain rfl : e = 0 := hx rfl
    rfl
  | out =>
    unfold instrOfTc
    dsimp only
    split
    · next h => subst h; rfl
    · split
      · next h => subst h; rfl
      · rfl
  | inp =>
    unfold instrOfTc
    dsimp only
    split
    · next h => subst h; rfl
    · split
      · next h => subst h; rfl
      · rfl

end

/-- Settles O41: every completion row is `consumeTc` of its record. -/
theorem criticalSectionMasksCompletions : Obligations.CriticalSectionMasksCompletions := by
  unfold Obligations.CriticalSectionMasksCompletions
  refine fun s => ⟨rfl, rfl, fun h => exec_busReset_masked h, fun x y rest i hi => ?_⟩
  have hexec : exec i s = consumeTc x s := by
    obtain rfl | ⟨hx, rfl⟩ := hi
    · rfl
    · exact exec_instrOfTc hx
  rw [hexec]
  exact ⟨fun h => consumeTc_masked h x, fun h => consumeTc_empty h x, fun h hq hne => consumeTc_notHead h hq hne⟩

/-! ## Descriptor words -/

section
variable {s : State} {e : EpNum} {d : Dir} {k tog : Bool}

theorem exec_bdArmed (s : State) (e : EpNum) (d : Dir) (k tog : Bool) (n : BitVec 10) :
    exec (.bdArmed e d k tog n) s =
      if k = s.active e d ∧ tog = s.armToggle e d then exec (.arm e d ((s.epDir e d).bd k).addr n.toNat) s
      else answerCode s .errArg := rfl

theorem exec_bdStalled (s : State) (e : EpNum) (d : Dir) (k : Bool) (n : BitVec 10) :
    exec (.bdStalled e d k n) s =
      if k = s.hw e d ∧ n.toNat = s.cfg.mps e d then exec (.setHalt e d) s else answerCode s .errArg := rfl

theorem exec_bdReturned_out (s : State) (e : EpNum) (k tog : Bool) (n : BitVec 10) :
    exec (.bdReturned e .out k tog n) s =
      if canReturn s e .out k tog n.toNat then
        exec (.hwOut e tog (s.bytes ((s.epDir e .out).bd k).addr n.toNat)) s
      else .next s := rfl

theorem exec_bdReturned_inp (s : State) (e : EpNum) (k tog : Bool) (n : BitVec 10) :
    exec (.bdReturned e .inp k tog n) s =
      if canReturn s e .inp k tog n.toNat then exec (.hwIn e) s else .next s := rfl

/-- The descriptor word can be written by the channel. -/
def State.returnable (s : State) (e : EpNum) (d : Dir) (k tog : Bool) : Prop :=
  ¬(e = 0 ∧ s.ep0Hold = true) ∧ k = s.hw e d ∧ ((s.epDir e d).bd k).owner = .hw ∧
    ((s.epDir e d).bd k).stall = false ∧ tog = ((s.epDir e d).bd k).toggle

theorem canReturn_out (n : Nat) : canReturn s e .out k tog n = true ↔
    s.returnable e .out k tog ∧ n ≤ ((s.epDir e .out).bd k).count := by
  simp only [canReturn, Bool.and_eq_true, beq_iff_eq, decide_eq_true_eq, outHandshake_ack, State.returnable,
    State.nextBd]
  constructor
  · rintro ⟨⟨rfl, htog⟩, ⟨ho, hfree⟩, hst, hn, -⟩
    exact ⟨⟨hfree, rfl, ho, hst, htog⟩, hn⟩
  · rintro ⟨⟨hfree, rfl, ho, hst, htog⟩, hn⟩
    exact ⟨⟨rfl, htog⟩, ⟨ho, hfree⟩, hst, hn, htog⟩

theorem canReturn_inp (n : Nat) : canReturn s e .inp k tog n = true ↔
    s.returnable e .inp k tog ∧ n = ((s.epDir e .inp).bd k).count := by
  simp only [canReturn, Bool.and_eq_true, beq_iff_eq, decide_eq_true_eq, inHandshake_ack, State.returnable,
    State.nextBd]
  constructor
  · rintro ⟨⟨rfl, htog⟩, ⟨⟨ho, hfree⟩, hst⟩, hn⟩
    exact ⟨⟨hfree, rfl, ho, hst, htog⟩, hn⟩
  · rintro ⟨⟨hfree, rfl, ho, hst, htog⟩, hn⟩
    exact ⟨⟨rfl, htog⟩, ⟨⟨ho, hfree⟩, hst⟩, hn⟩

/-- A packet that carries the bytes its buffer holds already changes no byte. -/
theorem sameMemory_of_rewritten {t : State} (hm : s.memoryOk) {a n : Nat}
    (ht : t.mem = Memory.writeBytes s.mem a (s.bytes a n)) : SameMemory s t := by
  intro x
  by_cases hx : a ≤ x ∧ x < a + n
  · have h := copied_of_stored hm ht (x - a) (by omega)
    rwa [Nat.add_sub_cancel' hx.1] at h
  · exact sameOutside_of_copied hm ht x (by omega)

end

/-- Settles O60: each row is the rule that writes its word: `ARM`, `SET_HALT`, or a transaction of the channel. -/
theorem descriptorWordsAreStored : Obligations.DescriptorWordsAreStored := by
  unfold Obligations.DescriptorWordsAreStored
  intro s e d k tog n hex
  have he : e.val < s.cfg.nEp := by
    simp only [bdExists, Bool.and_eq_true, decide_eq_true_eq] at hex
    exact hex.1
  refine ⟨fun hno => ?_, fun hk htog hg hn hh ho hu => ?_, fun hno => ?_, fun hk hn h0 hc hbusy hh => ?_,
    fun hd hfree hn hm hsp => ?_, fun hd hfree hn hsp => ?_, fun hno => ?_⟩
  · rw [exec_bdArmed, if_neg (by rwa [not_and_or])]
    rfl
  · have hr := armResult_free (by rw [State.not_gated_of hg]; decide) hn hh (hk ▸ ho) (hk ▸ hu)
    have hexec := exec_arm_ok ((s.epDir e d).bd k).addr he hr
    refine ⟨_, ?_, hexec, ?_⟩
    · rw [exec_bdArmed, if_pos ⟨hk, htog⟩, hexec]
    rw [State.answer_epDir, armStore_epDir_eq_setActive, ← hk, ← htog]
    refine ⟨by simp, by simp, by simp, ?_, (sameMemory_of rfl).answer _, rfl⟩
    exact SameDirsBut.answer _ fun e' d' h => armStore_epDir_ne s e d _ _ h
  · rw [exec_bdStalled, if_neg (by rwa [not_and_or])]
    rfl
  · obtain ⟨t, ht, hhalts, -, -, hdirs, hmem, hframe⟩ := exec_setHalt_next he h0 hc (State.not_busy_of hbusy) hh
    exact ⟨t, by rw [exec_bdStalled, if_pos ⟨hk, hn⟩, ht], ht, hhalts, hdirs, hmem, hframe⟩
  · subst hd
    have hlen : (s.bytes ((s.epDir e .out).bd k).addr n.toNat).length = n.toNat := State.length_bytes ..
    obtain ⟨hfree', rfl, ho, hst, htog⟩ := hfree
    have hcan := (canReturn_out n.toNat).2 ⟨⟨hfree', rfl, ho, hst, htog⟩, hn⟩
    have hh := (outHandshake_ack s e tog n.toNat).2 ⟨⟨ho, hfree'⟩, hst, hn, htog⟩
    have hexec := exec_hwOut_ack (b := s.bytes (s.nextBd e .out).addr n.toNat) (hlen ▸ hh) (hlen.symm ▸ hsp)
    refine ⟨_, ?_, hexec, ?_⟩
    · rw [exec_bdReturned_out, if_pos hcan]
      exact hexec
    rw [outTaken_epDir, htog]
    exact ⟨by simp [State.nextBd], by simp, outTaken_dirsBut s e _, sameMemory_of_rewritten hm rfl, rfl⟩
  · subst hd
    obtain ⟨hfree', rfl, ho, hst, htog⟩ := hfree
    have hcan := (canReturn_inp n.toNat).2 ⟨⟨hfree', rfl, ho, hst, htog⟩, hn⟩
    have hh := (inHandshake_ack s e).2 ⟨⟨ho, hfree'⟩, hst⟩
    have hexec := exec_hwIn_ack hh (hn ▸ hsp)
    refine ⟨_, ?_, hexec, ?_⟩
    · rw [exec_bdReturned_inp, if_pos hcan, hexec]
    rw [inTaken_epDir, htog, hn]
    exact ⟨by simp [State.nextBd], by simp, inTaken_dirsBut s e, sameMemory_of rfl, rfl⟩
  · cases d with
    | out =>
      rw [exec_bdReturned_out, if_neg fun h => ?_]
      obtain ⟨hret, hn⟩ := (canReturn_out n.toNat).1 h
      obtain hno | ⟨-, hno⟩ | ⟨hno, -⟩ := hno
      · exact hno hret
      · exact Nat.not_lt.2 hn hno
      · cases hno
    | inp =>
      rw [exec_bdReturned_inp, if_neg fun h => ?_]
      obtain ⟨hret, hn⟩ := (canReturn_inp n.toNat).1 h
      obtain hno | ⟨hno, -⟩ | ⟨-, hno⟩ := hno
      · exact hno hret
      · cases hno
      · exact hno hn

end Sys2Proof.Machine
end

section
/-! # The completions of endpoint 0 (41_control_engine.md R121, R124, R125, R128, R130, R133, R136 to R138)

What consuming a completion leaves, and then what the engine makes of it: O43 to O45 and O56. -/

namespace Sys2Proof.Machine

theorem State.ended_epDir (u : State) (c : Session) (x : CteState) (e : EpNum) (d : Dir) :
    ({ u with cs := c, cteState := x } : State).epDir e d = u.epDir e d := epDir_congr rfl e d

theorem SameDir.offers {s u t : State} {e : EpNum} {d : Dir} {a n : Nat} (h : SameDir s u e d) (ho : Offers u t e d a n) :
    Offers s t e d a n := (Offers.congr h.cfg.symm h.epDir.symm rfl).2 ho

theorem SameDir.halts {s u t : State} {e : EpNum} {d : Dir} (h : SameDir s u e d) (hh : Halts u t e d) : Halts s t e d :=
  (Halts.congr h.cfg.symm h.epDir.symm rfl).2 hh

/-! ## A completion consumed -/

section
variable {s t : State} {x : Tc} {rest : List Tc} {a n : Nat}

theorem consumed_dirsBut (s : State) (x : Tc) (rest : List Tc) : SameDirsBut s (consumed s x rest) x.e x.d :=
  fun _ _ h => consumed_epDir_ne s x rest h

/-- A rule that leaves the direction as consuming left it. -/
theorem readOnce_of_kept (hp : x.pid ≠ .setup) (ht : t.epDir x.e x.d = (consumed s x rest).epDir x.e x.d) :
    ReadOnce s t x.e x.d := (ReadOnce.congr rfl rfl ht).2 (consumed_readOnce s x rest hp)

theorem dirsBut_of_consumed (ht : SameDirsBut (consumed s x rest) t x.e x.d) : SameDirsBut s t x.e x.d :=
  fun e d h => (ht e d h).trans (consumed_dirsBut s x rest e d h)

section
variable (hp : x.pid ≠ .setup) (h1 : s.oneUnread x.e x.d)
include hp

theorem consumed_nextBuf : (consumed s x rest).nextBuf x.e x.d = s.nextBuf x.e x.d := by
  rw [State.nextBuf, (consumed_readOnce s x rest hp).active rfl]
  rfl

/-- A rule that offers the direction again. -/
theorem readOnceThenOffers_of_offers (ho : Offers (consumed s x rest) t x.e x.d a n) :
    ReadOnceThenOffers s t x.e x.d a n := (consumed_readOnce s x rest hp).offers rfl ho

include h1

theorem consumed_clear : (consumed s x rest).clear x.e x.d := (consumed_readOnce s x rest hp).clear rfl h1

end

/-- The row of a record that is the head of the queue hands it to its handler. -/
theorem consumeTc_head (hi : s.tcIrqEn = true) (hq : s.tcq = x :: rest) : consumeTc x s =
    handle (consumed s x rest) x ((s.epDir x.e x.d).bd (s.rd x.e x.d)).count
      ((s.epDir x.e x.d).bd (s.rd x.e x.d)).addr := exec_evTc_head hi hq

theorem exec_cteIn (hi : s.tcIrqEn = true) (hq : s.tcq = ⟨0, .inp⟩ :: rest) :
    exec .cteIn s = onCteIn (consumed s ⟨0, .inp⟩ rest) := consumeTc_head hi hq

theorem exec_cteOut (hi : s.tcIrqEn = true) (hq : s.tcq = ⟨0, .out⟩ :: rest) : exec .cteOut s =
    onCteOut (consumed s ⟨0, .out⟩ rest) ((s.epDir 0 .out).bd (s.rd 0 .out)).count
      ((s.epDir 0 .out).bd (s.rd 0 .out)).addr := consumeTc_head hi hq

theorem exec_cteSetup (hi : s.tcIrqEn = true) (hq : s.tcq = ⟨0, .setup⟩ :: rest) : exec .cteSetup s =
    onCteSetup (consumed s ⟨0, .setup⟩ rest) ((s.epDir 0 .out).bd (s.rd 0 .out)).count
      ((s.epDir 0 .out).bd (s.rd 0 .out)).addr := consumeTc_head hi hq

end

/-! ## `CTE_IN` -/

section
variable {s : State}

theorem onCteIn_chunk (hs : s.cteState = .dataIn) (hr : 0 < s.cs.remaining) : onCteIn s = sendChunk s := by
  rw [onCteIn, hs]
  exact if_pos hr

/-- The trailing zero-length packet sent. -/
def zlpSent (s : State) : State := (armEp0Zlp s).setCs { s.cs with needsZlp := false, lastLen := 0 }

theorem onCteIn_zlp (hs : s.cteState = .dataIn) (hr : s.cs.remaining = 0) (hz : s.cs.needsZlp = true) :
    onCteIn s = .next (zlpSent s) := by
  have hcs : (armEp0Zlp s).cs = s.cs := by rw [armEp0Zlp_frame]
  rw [onCteIn, hs]
  refine (if_neg (by omega)).trans ((if_pos hz).trans ?_)
  dsimp only
  rw [zlpSent, hcs]

theorem zlpSent_frame (s : State) : zlpSent s =
    { s with eps := (armEp0Zlp s).eps, cs := { s.cs with needsZlp := false, lastLen := 0 } } := by
  rw [zlpSent, armEp0Zlp_frame]
  rfl

theorem onCteIn_dataEnd (hs : s.cteState = .dataIn) (hr : s.cs.remaining = 0) (hz : s.cs.needsZlp = false) :
    onCteIn s = .next (s.setCte .status) := by
  rw [onCteIn, hs]
  exact (if_neg (by omega)).trans (if_neg (by simp [hz]))

theorem onCteIn_status (hs : s.cteState = .status) (hd : s.cs.direction = .out) :
    onCteIn s = .next (completeSession s) := by
  rw [onCteIn, hs]
  exact if_pos hd

theorem onCteIn_idle (hs : s.cteState = .idle ∨ s.cteState = .setupReceived ∨ s.cteState = .dataOut ∨
    (s.cteState = .status ∧ s.cs.direction = .inp)) : onCteIn s = .next s := by
  obtain h | h | h | ⟨h, hd⟩ := hs
  · rw [onCteIn, h]
  · rw [onCteIn, h]
  · rw [onCteIn, h]
  · rw [onCteIn, h]
    exact if_neg (by simp [hd])

theorem chunkSent_cs (s : State) : (chunkSent s).cs =
    { s.cs with
      cursor := s.cs.cursor + s.chunkLen, remaining := s.cs.remaining - s.chunkLen, lastLen := s.chunkLen
      needsZlp := s.cs.needsZlp ||
        decide (s.cs.remaining - s.chunkLen = 0 ∧ s.chunkLen = s.cfg.mps0 ∧ s.cs.returningShort = true) } := by
  rw [chunkSent_frame]
  simp [Session.chunkSent, zlpNeeded, State.chunkLen, Bool.decide_and, Bool.and_assoc]

end

/-- Settles O44: the completion is consumed, and each branch of `CTE_IN` then runs on that state. -/
theorem inCompletionAdvancesEngine : Obligations.InCompletionAdvancesEngine := by
  unfold Obligations.InCompletionAdvancesEngine
  intro s rest hirq hq h1
  have hexec := exec_cteIn hirq hq
  have hp : (⟨0, .inp⟩ : Tc).pid ≠ .setup := nofun
  have hclear : (consumed s ⟨0, .inp⟩ rest).clear 0 .inp := consumed_clear hp h1
  have hbuf : (consumed s ⟨0, .inp⟩ rest).nextBuf 0 .inp = s.nextBuf 0 .inp := consumed_nextBuf hp
  have hself : SameDir (consumed s ⟨0, .inp⟩ rest) (consumed s ⟨0, .inp⟩ rest) 0 .inp := ⟨rfl, rfl⟩
  refine ⟨fun hs hr hm => ?_, fun hs hr hz => ?_, fun hs hr hz => ?_, fun hs hd => ?_, fun hs => ?_⟩
  · intro n p hsrc hdst
    have hoffers := readOnceThenOffers_of_offers hp (chunkSent_offers hself hclear)
    obtain ⟨hcopied, houtside⟩ := chunkSent_memory (u := consumed s ⟨0, .inp⟩ rest) hm
    rw [hbuf] at hoffers hcopied houtside
    have hsent : onCteIn (consumed s ⟨0, .inp⟩ rest) = .next (chunkSent (consumed s ⟨0, .inp⟩ rest)) :=
      (onCteIn_chunk (s := consumed s ⟨0, .inp⟩ rest) hs hr).trans (sendChunk_ok hsrc (by rw [hbuf]; exact hdst))
    refine ⟨_, hexec.trans hsent, chunkSent_cs _, hoffers, hcopied, houtside,
      dirsBut_of_consumed (x := ⟨0, .inp⟩) (chunkSent_dirsBut _), ?_⟩
    rw [chunkSent_frame]
    rfl
  · have hframe := zlpSent_frame (consumed s ⟨0, .inp⟩ rest)
    have hdir (e d) : (zlpSent (consumed s ⟨0, .inp⟩ rest)).epDir e d =
        (armEp0Zlp (consumed s ⟨0, .inp⟩ rest)).epDir e d := State.setCs_epDir ..
    have hoffers := armEp0Zlp_offers hself hclear
    rw [hbuf] at hoffers
    refine ⟨_, hexec.trans (onCteIn_zlp (s := consumed s ⟨0, .inp⟩ rest) hs hr hz), rfl,
      readOnceThenOffers_of_offers hp ((Offers.congr rfl rfl (hdir ..)).2 hoffers),
      dirsBut_of_consumed (x := ⟨0, .inp⟩) fun e d h => (hdir e d).trans (armEp0Zlp_dirsBut _ e d h),
      sameMemory_of ?_, ?_⟩
    · rw [hframe]; rfl
    · rw [hframe]; rfl
  · have hdir (e d) : ((consumed s ⟨0, .inp⟩ rest).setCte .status).epDir e d =
        (consumed s ⟨0, .inp⟩ rest).epDir e d := State.setCte_epDir ..
    exact ⟨_, hexec.trans (onCteIn_dataEnd (s := consumed s ⟨0, .inp⟩ rest) hs hr hz), readOnce_of_kept hp (hdir ..),
      dirsBut_of_consumed (x := ⟨0, .inp⟩) fun e d _ => hdir e d, sameMemory_of rfl, rfl⟩
  · have hframe := completeSession_eq (consumed s ⟨0, .inp⟩ rest)
    have hdir (e d) : (completeSession (consumed s ⟨0, .inp⟩ rest)).epDir e d =
        (consumed s ⟨0, .inp⟩ rest).epDir e d := epDir_congr (by rw [hframe]) ..
    refine ⟨_, hexec.trans (onCteIn_status (s := consumed s ⟨0, .inp⟩ rest) hs hd),
      by rw [hframe]; rfl, by rw [hframe]; rfl, by rw [hframe]; rfl,
      readOnce_of_kept hp (hdir ..), dirsBut_of_consumed fun e d _ => hdir e d, sameMemory_of (by rw [hframe]; rfl), ?_⟩
    rw [hframe]; rfl
  · exact ⟨_, hexec.trans (onCteIn_idle (s := consumed s ⟨0, .inp⟩ rest) hs),
      readOnce_of_kept hp rfl, consumed_dirsBut s _ rest, sameMemory_of rfl, rfl⟩

/-! ## `CTE_OUT` -/

section
variable {s u : State} {n buf : Nat}

theorem onCteOut_data (hs : s.cteState = .dataOut) (n buf : Nat) : onCteOut s n buf = onDataOut s n buf := by
  rw [onCteOut, hs]

theorem onDataOut_fits (hn : n ≤ s.cs.remaining) (hsrc : buf + n ≤ s.cfg.memSize)
    (hdst : s.cs.cursor + n ≤ s.cfg.memSize) : onDataOut s n buf = .next (dataTaken s n buf) :=
  onDataOut_of_copied hn (copyMem_ok hsrc hdst)

/-- The last packet of the data stage, and the status packet offered. -/
def dataFinished (s : State) (n buf : Nat) : State := armEp0Zlp ((dataStored s n buf).setCte .status)

theorem onCteOut_more (hs : s.cteState = .dataOut) (h : n = s.cfg.mps0) (hr : n < s.cs.remaining)
    (hsrc : buf + n ≤ s.cfg.memSize) (hdst : s.cs.cursor + n ≤ s.cfg.memSize) :
    onCteOut s n buf = .next (dataStored s n buf) := by
  rw [onCteOut_data hs, onDataOut_fits hr.le hsrc hdst, dataTaken, if_neg (by omega)]

theorem onCteOut_last (hs : s.cteState = .dataOut) (hr : n ≤ s.cs.remaining) (h : n < s.cfg.mps0 ∨ n = s.cs.remaining)
    (hsrc : buf + n ≤ s.cfg.memSize) (hdst : s.cs.cursor + n ≤ s.cfg.memSize) :
    onCteOut s n buf = .next (dataFinished s n buf) := by
  rw [onCteOut_data hs, onDataOut_fits hr hsrc hdst, dataTaken, if_pos (by omega)]
  rfl

theorem onCteOut_tooLarge (h : (s.cteState = .dataOut ∧ s.cs.remaining < n) ∨
    ((s.cteState = .dataIn ∨ s.cteState = .status) ∧ 0 < n)) (buf : Nat) :
    onCteOut s n buf = .next (raise s .localProtocolEp0) := by
  obtain ⟨hs, hn⟩ | ⟨hs | hs, hn⟩ := h
  · rw [onCteOut_data hs, onDataOut, if_pos hn]
  · rw [onCteOut, hs]
    exact if_neg (by omega)
  · rw [onCteOut, hs]
    exact if_neg (by omega)

theorem onCteOut_statusPacket (hs : s.cteState = .status) (hd : s.cs.direction = .inp) (buf : Nat) :
    onCteOut s 0 buf = .next (armEp0Out (completeSession s)) := by
  rw [onCteOut, hs]
  exact (if_pos rfl).trans (if_pos hd)

theorem onCteOut_early (hs : s.cteState = .dataIn) (buf : Nat) :
    onCteOut s 0 buf = .next (armEp0Out (abortSession (cancel s 0 .inp))) := by
  rw [onCteOut, hs]
  exact if_pos rfl

theorem onCteOut_discarded (h : s.cteState = .idle ∨ (s.cteState = .status ∧ s.cs.direction = .out ∧ n = 0))
    (buf : Nat) : onCteOut s n buf = .next (armEp0Out s) := by
  obtain hs | ⟨hs, hd, rfl⟩ := h
  · rw [onCteOut, hs]
  · rw [onCteOut, hs]
    exact (if_pos rfl).trans (if_neg (by simp [hd]))

theorem onCteOut_held (hs : s.cteState = .setupReceived) (n buf : Nat) : onCteOut s n buf = .next s := by
  rw [onCteOut, hs]

/-! ### What the data packets leave -/

theorem dataStored_offers (hcl : s.clear 0 .out) (n buf : Nat) :
    Offers s (dataStored s n buf) 0 .out (s.nextBuf 0 .out) s.cfg.mps0 :=
  armEp0Out_offers ⟨rfl, epDir_congr rfl _ _⟩ hcl

theorem dataStored_dirsBut (s : State) (n buf : Nat) : SameDirsBut s (dataStored s n buf) 0 .out :=
  fun e d h => (armEp0Out_dirsBut _ e d h).trans (epDir_congr rfl e d)

theorem dataStored_memory (hm : s.memoryOk) (n buf : Nat) : Copied s (dataStored s n buf) s.cs.cursor buf n ∧
    SameMemoryOutside s (dataStored s n buf) s.cs.cursor n := by
  have hst : (dataStored s n buf).mem = Memory.writeBytes s.mem s.cs.cursor (s.bytes buf n) := by
    rw [dataStored_frame]
  exact ⟨copied_of_stored hm hst, sameOutside_of_copied hm hst⟩

theorem dataFinished_frame (s : State) (n buf : Nat) : dataFinished s n buf =
    { s with
      eps := (dataFinished s n buf).eps, mem := (dataStored s n buf).mem, cteState := .status
      cs := { s.cs with cursor := s.cs.cursor + n, remaining := s.cs.remaining - n } } := by
  unfold dataFinished
  rw [armEp0Zlp_frame, dataStored_frame]
  rfl

/-- OUT as the packet left it, IN armed for the status packet. -/
theorem dataFinished_dirs (hi : s.clear 0 .inp) (n buf : Nat) :
    (dataFinished s n buf).epDir 0 .out = (dataStored s n buf).epDir 0 .out ∧
      Offers s (dataFinished s n buf) 0 .inp (s.nextBuf 0 .inp) 0 ∧ SameAboveZero s (dataFinished s n buf) := by
  have hset (e d) : ((dataStored s n buf).setCte .status).epDir e d = (dataStored s n buf).epDir e d :=
    State.setCte_epDir ..
  have hzlp := armEp0Zlp_dirsBut ((dataStored s n buf).setCte .status)
  have hst := dataStored_dirsBut s n buf
  refine ⟨(hzlp _ _ (.inr (by simp))).trans (hset ..), armEp0Zlp_offers ⟨?_, ?_⟩ hi, fun e d h0 => ?_⟩
  · rw [dataStored_frame]; rfl
  · rw [hset, hst _ _ (.inr (by simp))]
  · exact (hzlp e d (.inl h0)).trans ((hset e d).trans (hst e d (.inl h0)))

/-! ### What a protocol error leaves -/

theorem haltEp0_msc (hwf : s.cfg.wf = true) (hi : (s.epDir 0 .inp).halted = false)
    (ho : (s.epDir 0 .out).halted = false) : (haltEp0 s).msc = s.msc := by
  rw [haltEp0_of_free hwf hi ho, halted_frame, halted_frame]

theorem localProtocol_frame (hwf : s.cfg.wf = true) (hi : (s.epDir 0 .inp).halted = false)
    (ho : (s.epDir 0 .out).halted = false) : raise s .localProtocolEp0 =
      { s with
        eps := (haltEp0 s).eps, tcq := s.tcq.filter fun c => !(c.e == 0), cs := s.cs.ended, cteState := .idle
        dev := { s.dev with pendingValid := false }, outputs := s.outputs ++ s.cs.report false } := by
  rw [localProtocol_eq, haltEp0_frame, haltEp0_tcq hwf hi ho, haltEp0_msc hwf hi ho]

theorem localProtocol_dirs (hwf : s.cfg.wf = true) (hi : (s.epDir 0 .inp).halted = false)
    (ho : (s.epDir 0 .out).halted = false) :
    Halts s (raise s .localProtocolEp0) 0 .inp ∧ Halts s (raise s .localProtocolEp0) 0 .out ∧
      SameAboveZero s (raise s .localProtocolEp0) := by
  have hdir (e d) : (raise s .localProtocolEp0).epDir e d = (haltEp0 s).epDir e d :=
    epDir_congr (by rw [localProtocol_frame hwf hi ho]) e d
  exact ⟨(Halts.congr rfl rfl (hdir ..)).2 (haltEp0_halts_inp hwf hi ho),
    (Halts.congr rfl rfl (hdir ..)).2 (haltEp0_halts_out hwf hi ho),
    fun e d h0 => (hdir e d).trans (haltEp0_aboveZero s e d h0)⟩

end

/-- Settles O45: the completion is consumed, and each branch of `CTE_OUT` then runs on that state. -/
theorem outCompletionAdvancesEngine : Obligations.OutCompletionAdvancesEngine := by
  unfold Obligations.OutCompletionAdvancesEngine
  intro s rest hwf hirq hq h1
  have hexec := exec_cteOut hirq hq
  have hp : (⟨0, .out⟩ : Tc).pid ≠ .setup := nofun
  have hclear : (consumed s ⟨0, .out⟩ rest).clear 0 .out := consumed_clear hp h1
  have hbuf : (consumed s ⟨0, .out⟩ rest).nextBuf 0 .out = s.nextBuf 0 .out := consumed_nextBuf hp
  have hread : ReadOnce s (consumed s ⟨0, .out⟩ rest) 0 .out := readOnce_of_kept hp rfl
  have hcons : SameDirsBut s (consumed s ⟨0, .out⟩ rest) 0 .out := consumed_dirsBut s ⟨0, .out⟩ rest
  have hinp : SameDir s (consumed s ⟨0, .out⟩ rest) 0 .inp := ⟨rfl, hcons _ _ (.inr (by simp))⟩
  have hdirs {t : State} (h : SameDirsBut (consumed s ⟨0, .out⟩ rest) t 0 .out) : SameDirsBut s t 0 .out :=
    dirsBut_of_consumed (x := ⟨0, .out⟩) h
  have habove {t : State} (h : SameAboveZero (consumed s ⟨0, .out⟩ rest) t) : SameAboveZero s t :=
    fun e d h0 => (h e d h0).trans (hcons e d (.inl h0))
  have hoffered {t : State} {n : Nat} (h : Offers (consumed s ⟨0, .out⟩ rest) t 0 .out
      ((consumed s ⟨0, .out⟩ rest).nextBuf 0 .out) n) : ReadOnceThenOffers s t 0 .out (s.nextBuf 0 .out) n :=
    hbuf ▸ readOnceThenOffers_of_offers hp h
  have harmed (t : State) (h : SameDir (consumed s ⟨0, .out⟩ rest) t 0 .out) :
      ReadOnceThenOffers s (armEp0Out t) 0 .out (s.nextBuf 0 .out) s.cfg.mps0 :=
    hoffered (armEp0Out_offers h hclear)
  dsimp only
  rw [hexec]
  refine ⟨fun hs hm hn hlt hsrc hdst => ?_, fun hs hm hn hlast hsrc hdst hi => ?_, fun hbad hi => ?_,
    fun hs hd hn => ?_, fun hs hn => ?_, fun hs => ?_, fun hs => ?_⟩
  · obtain ⟨hcopied, houtside⟩ := dataStored_memory (s := consumed s ⟨0, .out⟩ rest) hm
      ((s.epDir 0 .out).bd (s.rd 0 .out)).count ((s.epDir 0 .out).bd (s.rd 0 .out)).addr
    exact ⟨_, onCteOut_more (s := consumed s ⟨0, .out⟩ rest) hs hn hlt hsrc hdst, by rw [dataStored_frame]; rfl,
      hoffered (dataStored_offers hclear ..), hcopied, houtside, hdirs (dataStored_dirsBut _ _ _),
      by rw [dataStored_frame]; rfl⟩
  · obtain ⟨hcopied, houtside⟩ := dataStored_memory (s := consumed s ⟨0, .out⟩ rest) hm
      ((s.epDir 0 .out).bd (s.rd 0 .out)).count ((s.epDir 0 .out).bd (s.rd 0 .out)).addr
    obtain ⟨hout, hin, hkept⟩ := dataFinished_dirs (hinp.clear.2 hi)
      ((s.epDir 0 .out).bd (s.rd 0 .out)).count ((s.epDir 0 .out).bd (s.rd 0 .out)).addr
    rw [hinp.nextBuf] at hin
    refine ⟨_, onCteOut_last (s := consumed s ⟨0, .out⟩ rest) hs hn hlast hsrc hdst, by rw [dataFinished_frame]; rfl,
      hoffered ((Offers.congr rfl rfl hout).2 (dataStored_offers hclear ..)),
      hinp.offers hin, hcopied.congr rfl (by rw [dataFinished_frame]),
      houtside.congr rfl (by rw [dataFinished_frame]), habove hkept, by rw [dataFinished_frame]; rfl⟩
  · have hi' : ((consumed s ⟨0, .out⟩ rest).epDir 0 .inp).halted = false := by rw [hinp.epDir, hi]
    have hframe := localProtocol_frame (s := consumed s ⟨0, .out⟩ rest) hwf hi' hclear.1
    obtain ⟨hhin, hhout, hkept⟩ := localProtocol_dirs (s := consumed s ⟨0, .out⟩ rest) hwf hi' hclear.1
    exact ⟨_, _, onCteOut_tooLarge (s := consumed s ⟨0, .out⟩ rest) hbad _,
      hinp.halts hhin, hread, rfl, hhout, by rw [hframe]; rfl, by rw [hframe]; rfl,
      by rw [hframe]; rfl, by rw [hframe]; rfl, habove hkept, sameMemory_of (by rw [hframe]; rfl), by rw [hframe]; rfl⟩
  · have hframe := completeSession_eq (consumed s ⟨0, .out⟩ rest)
    have hdir (e d) : (completeSession (consumed s ⟨0, .out⟩ rest)).epDir e d =
        (consumed s ⟨0, .out⟩ rest).epDir e d := epDir_congr (by rw [hframe]) ..
    have hall := armEp0Out_frame (completeSession (consumed s ⟨0, .out⟩ rest))
    rw [hframe] at hall
    rw [hn]
    exact ⟨_, onCteOut_statusPacket (s := consumed s ⟨0, .out⟩ rest) hs hd _,
      harmed _ ⟨by rw [hframe], hdir ..⟩, by rw [hframe, hall]; rfl, by rw [hframe, hall]; rfl, by rw [hframe, hall]; rfl,
      hdirs fun e d h => (armEp0Out_dirsBut _ e d h).trans (hdir e d), sameMemory_of (by rw [hframe, hall]; rfl),
      by rw [hframe, hall]; rfl⟩
  · have hframe := abortSession_eq (cancel (consumed s ⟨0, .out⟩ rest) 0 .inp)
    have hdir (e d) : (abortSession (cancel (consumed s ⟨0, .out⟩ rest) 0 .inp)).epDir e d =
        (cancel (consumed s ⟨0, .out⟩ rest) 0 .inp).epDir e d := epDir_congr (by rw [hframe]) ..
    have harm := armEp0Out_dirsBut (abortSession (cancel (consumed s ⟨0, .out⟩ rest) 0 .inp))
    have hall := armEp0Out_frame (abortSession (cancel (consumed s ⟨0, .out⟩ rest) 0 .inp))
    rw [hframe] at hall
    rw [hn]
    refine ⟨_, onCteOut_early (s := consumed s ⟨0, .out⟩ rest) hs _,
      harmed _ ⟨by rw [hframe]; rfl, (hdir ..).trans (cancel_epDir_ne _ _ _ (.inr (by simp)))⟩, ?_,
      by rw [hframe, hall]; rfl, by rw [hframe, hall]; rfl, by rw [hframe, hall]; rfl,
      habove fun e d h0 => (harm e d (.inl h0)).trans ((hdir e d).trans (cancel_epDir_ne _ _ _ (.inl h0))),
      sameMemory_of (by rw [hframe, hall]; rfl), by rw [hframe, hall]; rfl⟩
    rw [harm _ _ (.inr (by simp)), hdir, cancel_epDir, hinp.epDir]
  · have hframe := armEp0Out_frame (consumed s ⟨0, .out⟩ rest)
    exact ⟨_, onCteOut_discarded (s := consumed s ⟨0, .out⟩ rest) hs _, harmed _ ⟨rfl, rfl⟩,
      hdirs (armEp0Out_dirsBut _), sameMemory_of (by rw [hframe]; rfl), by rw [hframe]; rfl⟩
  · exact ⟨_, onCteOut_held (s := consumed s ⟨0, .out⟩ rest) hs .., hread, hcons, sameMemory_of rfl, rfl⟩

/-! ## `CTE_SETUP` -/

section
variable {s : State} {n buf : Nat}

/-- What consuming a completion leaves of its direction but for the toggle. -/
theorem consumed_reads (s : State) (x : Tc) (rest : List Tc) :
    let y := (consumed s x rest).epDir x.e x.d
    let k := s.rd x.e x.d
    y.unread k = false ∧ y.unread (!k) = (s.epDir x.e x.d).unread (!k) ∧ (∀ j, y.bd j = (s.epDir x.e x.d).bd j) ∧
      y.rdIdx = (if s.cfg.pingpong x.e x.d then !k else (s.epDir x.e x.d).rdIdx) ∧
      y.hwIdx = (s.epDir x.e x.d).hwIdx ∧ y.activeIdx = (s.epDir x.e x.d).activeIdx ∧
      y.halted = (s.epDir x.e x.d).halted := by
  dsimp only
  rw [consumed_epDir]
  cases s.cfg.pingpong x.e x.d <;> cases s.rd x.e x.d <;>
    simp [EpDir.setUnread, EpDir.setRearmed, EpDir.unread, EpDir.bd]

theorem sessionFailed_eq (s : State) : sessionFailed s =
    { s with
      cs := if s.cteState ≠ .idle then s.cs.ended else s.cs, cteState := .idle
      dev := if s.cteState ≠ .idle then { s.dev with pendingValid := false } else s.dev
      outputs := s.outputs ++ if s.cteState ≠ .idle then s.cs.report false else [] } := by
  unfold sessionFailed
  split
  · rw [abortSession_eq]
  · next h => rw [List.append_nil, ← not_not.1 h]

theorem setupArrived_frame (s : State) : setupArrived s =
    { s with
      eps := (setupArrived s).eps, cs := freshSession, cteState := .setupReceived
      dev := if s.cteState ≠ .idle then { s.dev with pendingValid := false } else s.dev
      outputs := s.outputs ++ if s.cteState ≠ .idle then s.cs.report false else [] } := by
  rw [setupArrived_eq, toggled_frame, sessionFailed_eq]
  rfl

theorem setupArrived_epDir (s : State) (e : EpNum) (d : Dir) :
    (setupArrived s).epDir e d = (toggled (sessionFailed s)).epDir e d := by
  rw [setupArrived_eq]
  exact epDir_congr rfl e d

theorem sessionFailed_epDir (s : State) (e : EpNum) (d : Dir) : (sessionFailed s).epDir e d = s.epDir e d :=
  epDir_congr (by rw [sessionFailed_frame]) e d

theorem setupArrived_inp (s : State) :
    (setupArrived s).epDir 0 .inp = { (s.epDir 0 .inp).cancel with nextToggle := true } := by
  rw [setupArrived_epDir, toggled, State.onDir_epDir_ne _ _ _ _ (.inr (by simp)), State.onDir_epDir_same, cancel_epDir,
    sessionFailed_epDir]

theorem setupArrived_out (s : State) : (setupArrived s).epDir 0 .out = { s.epDir 0 .out with nextToggle := true } := by
  rw [setupArrived_epDir, toggled, State.onDir_epDir_same, State.onDir_epDir_ne _ _ _ _ (.inr (by simp)),
    cancel_epDir_ne _ _ _ (.inr (by simp)), sessionFailed_epDir]

theorem setupArrived_aboveZero (s : State) : SameAboveZero s (setupArrived s) := fun e d h0 => by
  rw [setupArrived_epDir, toggled, State.onDir_epDir_ne _ _ _ _ (.inl h0), State.onDir_epDir_ne _ _ _ _ (.inl h0),
    cancel_epDir_ne _ _ _ (.inl h0), sessionFailed_epDir]

theorem onCteSetup_received (hn : n = 8) (h : buf + 8 ≤ s.cfg.memSize) :
    onCteSetup s n buf = .next (setupLatched s (SetupPacket.parse (s.bytes buf 8))) := by
  have hcfg : (setupArrived s).cfg = s.cfg := by rw [setupArrived_frame]
  have hbytes : (setupArrived s).bytes buf 8 = s.bytes buf 8 := bytes_congr (by rw [setupArrived_frame]) buf 8
  have hcs : (setupArrived s).cs = freshSession := by rw [setupArrived_frame]
  unfold onCteSetup
  dsimp only
  rw [if_neg (not_not.2 hn), readMem_ok _ (by rwa [hcfg]), hbytes, hcs]
  rfl

theorem setupLatched_frame (s : State) (p : SetupPacket) : setupLatched s p =
    { s with
      eps := (setupArrived s).eps, cs := { freshSession with direction := setupDirection p }
      cteState := .setupReceived, setup := p
      dev := if s.cteState ≠ .idle then { s.dev with pendingValid := false } else s.dev
      outputs := s.outputs ++ (if s.cteState ≠ .idle then s.cs.report false else []) ++ [.setupRequest p] } := by
  unfold setupLatched
  rw [setupArrived_frame]
  rfl

theorem setupLatched_epDir (s : State) (p : SetupPacket) (e : EpNum) (d : Dir) :
    (setupLatched s p).epDir e d = (setupArrived s).epDir e d := epDir_congr (by rw [setupLatched_frame]) e d

/-- Endpoint 0 before it is halted for a SETUP of another length. -/
def setupReleased (s : State) : State := (setupArrived s).setHold false

theorem setupReleased_epDir (s : State) (e : EpNum) (d : Dir) :
    (setupReleased s).epDir e d = (setupArrived s).epDir e d := State.setHold_epDir ..

theorem setupReleased_frame (s : State) : setupReleased s =
    { s with
      eps := (setupArrived s).eps, cs := freshSession, cteState := .setupReceived, ep0Hold := false
      dev := if s.cteState ≠ .idle then { s.dev with pendingValid := false } else s.dev
      outputs := s.outputs ++ if s.cteState ≠ .idle then s.cs.report false else [] } := by
  unfold setupReleased
  rw [setupArrived_frame]
  rfl

/-- A SETUP of another length: both directions of endpoint 0 are halted. -/
def setupRejected (s : State) : State :=
  { haltEp0 (setupReleased s) with cs := (setupReleased s).cs.ended, cteState := .idle }

theorem setupRejected_epDir (s : State) (e : EpNum) (d : Dir) :
    (setupRejected s).epDir e d = (haltEp0 (setupReleased s)).epDir e d := by
  unfold setupRejected
  exact State.ended_epDir ..

theorem onCteSetup_rejected (hn : n ≠ 8) : onCteSetup s n buf = .next (setupRejected s) := by
  unfold onCteSetup
  dsimp only
  rw [if_pos hn]
  change Host.Outcome.next (rejectBody (setupArrived s) n) = _
  rw [rejectBody_eq, rejected, if_neg fun h => hn h.1]
  rfl

section
variable (hwf : s.cfg.wf = true) (hi : (s.epDir 0 .inp).halted = false) (ho : (s.epDir 0 .out).halted = false)
include hwf hi ho

theorem setupReleased_free : (setupReleased s).cfg.wf = true ∧ ((setupReleased s).epDir 0 .inp).halted = false ∧
    ((setupReleased s).epDir 0 .out).halted = false := by
  refine ⟨by rwa [setupReleased_frame], ?_, ?_⟩
  · rw [setupReleased_epDir, setupArrived_inp]; exact hi
  · rw [setupReleased_epDir, setupArrived_out]; exact ho

theorem setupRejected_frame : setupRejected s =
    { s with
      eps := (setupRejected s).eps, tcq := s.tcq.filter fun c => !(c.e == 0), cs := freshSession.ended
      cteState := .idle, ep0Hold := false
      dev := if s.cteState ≠ .idle then { s.dev with pendingValid := false } else s.dev
      outputs := s.outputs ++ if s.cteState ≠ .idle then s.cs.report false else [] } := by
  obtain ⟨hwf', hi', ho'⟩ := setupReleased_free hwf hi ho
  have hframe := haltEp0_frame (setupReleased s)
  rw [haltEp0_msc hwf' hi' ho', haltEp0_tcq hwf' hi' ho', setupReleased_frame] at hframe
  unfold setupRejected
  rw [setupReleased_frame, hframe]

theorem setupRejected_halts (d : Dir) : Halts (setupReleased s) (setupRejected s) 0 d := by
  obtain ⟨hwf', hi', ho'⟩ := setupReleased_free hwf hi ho
  have hdir := setupRejected_epDir s 0 d
  cases d with
  | out => exact (Halts.congr rfl rfl hdir).2 (haltEp0_halts_out hwf' hi' ho')
  | inp => exact (Halts.congr rfl rfl hdir).2 (haltEp0_halts_inp hwf' hi' ho')

end

theorem setupRejected_aboveZero (s : State) : SameAboveZero s (setupRejected s) := fun e d h0 => by
  rw [setupRejected_epDir, haltEp0_aboveZero _ e d h0, setupReleased_epDir, setupArrived_aboveZero s e d h0]

end

theorem Desc.giveBack_giveBack (b : Desc) : b.giveBack.giveBack = b.giveBack := by
  rw [Desc.giveBack, if_neg (by simp)]

/-- What a rejected SETUP leaves of a direction of endpoint 0, told of the state before it was consumed: `u` is that
state after `setupArrived`. -/
theorem halts_of_setupArrived {s u t : State} {d : Dir} (hcfg : u.cfg = s.cfg)
    (hhw : (u.epDir 0 d).hwIdx = (s.epDir 0 d).hwIdx) (htog : (u.epDir 0 d).nextToggle = true)
    (hbd : ∀ j, ((u.epDir 0 d).bd j).giveBack = ((s.epDir 0 d).bd j).giveBack) (h : Halts u t 0 d) :
    (t.epDir 0 d).nextToggle = true ∧ (t.epDir 0 d).halted = true ∧
      (t.epDir 0 d).bd (s.hw 0 d) = ⟨s.cfg.epbuf 0 d (s.hw 0 d), s.cfg.mps0, .hw, false, true⟩ ∧
      (t.epDir 0 d).bd (!s.hw 0 d) = ((s.epDir 0 d).bd (!s.hw 0 d)).giveBack ∧
      (∀ j, (t.epDir 0 d).unread j = false) ∧ (t.epDir 0 d).rdIdx = s.hw 0 d ∧
      (t.epDir 0 d).hwIdx = (s.epDir 0 d).hwIdx ∧ (t.epDir 0 d).activeIdx = (s.epDir 0 d).hwIdx := by
  have hk : u.hw 0 d = s.hw 0 d := by simp [State.hw, State.pp, hcfg, hhw]
  obtain ⟨h1, h2, h3, h4, h5, -, -, h6, h7, h8⟩ := h
  rw [hk] at h1 h2 h6
  rw [hcfg] at h1
  exact ⟨h4.trans htog, h3, h1, h2.trans (hbd _), h5, h6, h7.trans hhw, h8.trans hhw⟩

/-- Settles O43: the completion is consumed, `setupArrived` says what becomes of endpoint 0, and the packet is latched
or rejected. -/
theorem setupStartsSession : Obligations.SetupStartsSession := by
  unfold Obligations.SetupStartsSession
  intro s rest hirq hq
  have hexec := exec_cteSetup hirq hq
  have hev : exec (.evTc ⟨0, .setup⟩) s = exec .cteSetup s := rfl
  obtain ⟨hread, hother, hbd, hrd, hhw, hact, hhalt⟩ := consumed_reads s ⟨0, .setup⟩ rest
  have hcons := consumed_dirsBut s ⟨0, .setup⟩ rest
  have hinp : (consumed s ⟨0, .setup⟩ rest).epDir 0 .inp = s.epDir 0 .inp := hcons _ _ (.inr (by simp [Tc.d, Pid.dir]))
  have harrivedIn := setupArrived_inp (consumed s ⟨0, .setup⟩ rest)
  have harrivedOut := setupArrived_out (consumed s ⟨0, .setup⟩ rest)
  have harrived (e d) (h0 : e ≠ 0) : (setupArrived (consumed s ⟨0, .setup⟩ rest)).epDir e d = s.epDir e d :=
    (setupArrived_aboveZero _ e d h0).trans (hcons e d (.inl h0))
  rw [hinp] at harrivedIn
  dsimp only
  rw [hev, hexec]
  refine ⟨fun hn hsp => ?_, fun hn hwf hfree => ?_⟩
  · have hframe := setupLatched_frame (consumed s ⟨0, .setup⟩ rest)
      (SetupPacket.parse (s.bytes ((s.epDir 0 .out).bd (s.rd 0 .out)).addr 8))
    have hdir (e d) := setupLatched_epDir (consumed s ⟨0, .setup⟩ rest)
      (SetupPacket.parse (s.bytes ((s.epDir 0 .out).bd (s.rd 0 .out)).addr 8)) e d
    have hbytes : (consumed s ⟨0, .setup⟩ rest).bytes ((s.epDir 0 .out).bd (s.rd 0 .out)).addr 8 =
        s.bytes ((s.epDir 0 .out).bd (s.rd 0 .out)).addr 8 := rfl
    have hnext := onCteSetup_received (s := consumed s ⟨0, .setup⟩ rest) hn hsp
    rw [hbytes] at hnext
    have hout := (hdir 0 .out).trans harrivedOut
    refine ⟨_, hnext, hnext, by rw [hframe]; rfl, by rw [hframe]; rfl, by rw [hframe]; rfl, fun d => ?_,
      (hdir ..).trans harrivedIn, fun j => ?_, ?_, ?_, ?_, ?_, ?_, fun e d h0 => (hdir e d).trans (harrived e d h0),
      sameMemory_of (by rw [hframe]; rfl), by rw [hframe]; rfl⟩
    · cases d with
      | out => rw [hout]; exact ⟨rfl, hhalt⟩
      | inp => rw [hdir, harrivedIn]; exact ⟨rfl, rfl⟩
    · rw [hout]; exact hbd j
    · rw [hout]; exact hread
    · rw [hout]; exact hother
    · rw [hout]; exact hact
    · rw [hout]; exact hhw
    · rw [hout]; exact hrd
  · have hi : ((consumed s ⟨0, .setup⟩ rest).epDir 0 .inp).halted = false := by rw [hinp]; exact hfree .inp
    have ho : ((consumed s ⟨0, .setup⟩ rest).epDir 0 .out).halted = false := hhalt.trans (hfree .out)
    have hframe := setupRejected_frame (s := consumed s ⟨0, .setup⟩ rest) hwf hi ho
    have hnext := onCteSetup_rejected (s := consumed s ⟨0, .setup⟩ rest)
      (buf := ((s.epDir 0 .out).bd (s.rd 0 .out)).addr) hn
    have hcs : (setupRejected (consumed s ⟨0, .setup⟩ rest)).cs = freshSession.ended := by rw [hframe]
    have htcq : (setupRejected (consumed s ⟨0, .setup⟩ rest)).tcq = rest.filter fun c => !(c.e == 0) := by
      rw [hframe]; rfl
    have hout : (setupRejected (consumed s ⟨0, .setup⟩ rest)).outputs =
        s.outputs ++ if s.cteState ≠ .idle then s.cs.report false else [] := by rw [hframe]; rfl
    refine ⟨_, hnext, hnext, hcs, hout, by rw [hframe]; rfl, fun d => ?_, htcq,
      fun e d h0 => (setupRejected_aboveZero _ e d h0).trans (hcons e d (.inl h0)),
      sameMemory_of (by rw [hframe]; rfl), by rw [hcs, htcq, hout]; exact hframe⟩
    have hcfg : (setupReleased (consumed s ⟨0, .setup⟩ rest)).cfg = s.cfg := by rw [setupReleased_frame]; rfl
    refine halts_of_setupArrived hcfg ?_ ?_ (fun j => ?_)
      (setupRejected_halts (s := consumed s ⟨0, .setup⟩ rest) hwf hi ho d) <;> rw [setupReleased_epDir]
    · cases d with
      | out => rw [harrivedOut]; exact hhw
      | inp => rw [harrivedIn]; rfl
    · cases d with
      | out => rw [harrivedOut]
      | inp => rw [harrivedIn]
    · cases d with
      | out => rw [harrivedOut]; exact congrArg Desc.giveBack (hbd j)
      | inp =>
        rw [harrivedIn]
        exact (congrArg Desc.giveBack (EpDir.cancel_bd (s.epDir 0 .inp) j)).trans (Desc.giveBack_giveBack _)

/-! ## The pseudo-operation `SETUP` -/

section
variable {s u : State}

/-- The completion of the transaction just done is consumed at once: nothing else was queued. -/
theorem consumeIfNext_nil {x : Tc} (hi : u.tcIrqEn = true) (hq : u.tcq = [x]) : consumeIfNext [] u = consumeTc x u :=
  (if_pos ⟨hi, rfl⟩).trans ((takeHead_eq hq).trans (consumeTc_head hi hq).symm)

theorem exec_setupWire {p : SetupPacket} (hh : setupHandshake s 8 = .ack) (ht : takeSetup s p.bytes = .next u) :
    exec (.setup .wire p) s = consumeIfNext s.tcq u := by
  change setupOnWire p s = _
  rw [setupOnWire, if_pos hh, ht]
  rfl

end

/-- Settles O56: the packet lands (O39), is the only record of the queue, and is consumed (O43). -/
theorem setupOnWireIsReceived : Obligations.SetupOnWireIsReceived := by
  unfold Obligations.SetupOnWireIsReceived
  intro s p hm hfree hirq hnil
  dsimp only
  intro ho hlen hsp hrd
  have h8 : p.bytes.length = 8 := rfl
  have hh := (setupHandshake_ack s 8).2 ⟨⟨ho, hfree⟩, hlen⟩
  obtain ⟨u, hu, hdirs, hinp, -, hbd, -, -, -, -, -, -, -, hbytes, houtside, habove, hframe⟩ :=
    hwSetupAlwaysLands s p.bytes hm hfree ho hlen hsp
  rw [h8] at hbd hbytes houtside
  have htake : takeSetup s p.bytes = .next u := by rwa [exec_hwSetup, h8, if_pos hh] at hu
  have hi : u.tcIrqEn = true := by rw [hframe]; exact hirq
  have hq : u.tcq = [⟨0, .setup⟩] := by rw [hframe, hnil]; rfl
  have hrd' : u.rd 0 .out = s.hw 0 .out := by
    obtain ⟨-, -, hidx, -⟩ := hdirs .out
    rw [← hrd, State.rd, State.rd, State.pp, State.pp, hidx, hframe]
  obtain ⟨hreceived, -⟩ := setupStartsSession u [] hi hq
  rw [hrd', hbd] at hreceived
  obtain ⟨t, ht, -, hcs, houts, -, htog, htin, -, -, -, -, -, -, habove', -, htframe⟩ :=
    hreceived rfl (by rw [hframe]; exact hsp)
  rw [hbytes, SetupPacket.parse_bytes] at hcs houts htframe
  have hmem : t.mem = u.mem := by rw [htframe]
  refine ⟨u, t, hu, ht, ?_, by rw [htframe], by rw [htframe], by rw [htframe, hframe], by rw [hcs], ?_, fun d => ?_,
    fun j => ?_, (bytes_congr hmem _ _).trans hbytes, houtside.congr rfl hmem,
    fun e d h0 => (habove' e d h0).trans (habove e d h0)⟩
  · rw [exec_setupWire hh htake, hnil, consumeIfNext_nil hi hq]
    exact ht
  · rw [houts, hframe]
  · obtain ⟨h1, h2⟩ := htog d
    obtain ⟨h3, -⟩ := hdirs d
    exact ⟨h2.trans h3, h1⟩
  · rw [htin]
    exact (congrArg Desc.owner (EpDir.cancel_bd (u.epDir 0 .inp) j)).trans (Desc.giveBack_owner _)

end Sys2Proof.Machine
end

section
/-! # The storage driver's notifications (43_msc_bot.md R198 to R206)

How a data phase ends, and how a packet of a write is taken, told of the state before the rule's registers were
written; then O31 to O34. -/

namespace Sys2Proof.Machine

theorem residueOf_eq_zero {a b : Nat} (h : a ≤ b) : residueOf a b = 0 := Nat.sub_eq_zero_of_le h

/-! ## The ends of a data phase -/

section
variable {s u : State} {n buf : Nat}

theorem residueRecorded_eps (u : State) (h : SameEps s u) : SameEps s (residueRecorded u) :=
  ⟨h.cfg, h.eps, h.configurationValue⟩

/-- The end of a read of fewer bytes than the host asked for. -/
theorem finishIn_stalled (h : SameEps s u) (hmem : u.mem = s.mem) (hq : u.tcq = s.tcq) (hwf : s.cfg.wf = true)
    (hc : s.dev.configurationValue ≠ 0) (hh : (s.epDir s.cfg.mscIn .inp).halted = false)
    (hlt : u.msc.transferred < u.msc.requested) :
    ∃ t, finishIn u = .next t ∧
      Stalls s t .inp { u.msc with residue := u.msc.requested - u.msc.transferred } ∧
      t = { u with eps := t.eps, tcq := t.tcq, msc := t.msc } := by
  obtain ⟨hst, hframe⟩ :=
    stallMsc_stalls (d := .inp) (residueRecorded_eps u h) (hmem : (residueRecorded u).mem = s.mem) hq hwf hc hh
  exact ⟨_, finishIn_stalls hlt, hst, hframe⟩

/-- The end of a read of as many bytes as the host asked for. -/
theorem finishIn_sent (h : SameEps s u) (hmem : u.mem = s.mem) (hwf : s.cfg.wf = true) (hm : s.memoryOk)
    (hc : s.dev.configurationValue ≠ 0) (hcl : s.clear s.cfg.mscIn .inp)
    (hsp : s.nextBuf s.cfg.mscIn .inp + 13 ≤ s.cfg.memSize) (ha : u.msc.cswArmed = false) (hi : u.msc.inArmed = false)
    (hle : u.msc.requested ≤ u.msc.transferred) :
    ∃ t, finishIn u = .next t ∧
      CswGoesOut s (u.setMsc { u.msc with residue := 0 }) t (cswBytes u.msc.currentTag 0 u.msc.status) := by
  have hres : residueRecorded u = u.setMsc { u.msc with residue := 0 } := by
    rw [residueRecorded, residueOf_eq_zero hle]
  have heps : SameEps s (u.setMsc { u.msc with residue := 0 }) := ⟨h.cfg, h.eps, h.configurationValue⟩
  obtain ⟨hnext, hgo⟩ := sendCsw_goesOut (heps.dir ..) hmem hwf hm (h.configurationValue ▸ hc) hcl hsp ha hi
  exact ⟨_, (finishIn_sends hle).trans ((congrArg sendCsw hres).trans hnext), hgo⟩

/-! ## A packet of a write -/

theorem acceptPacket_fits (h1 : n ≤ s.msc.intentLen - s.msc.transferred) (h2 : n ≤ s.msc.wbufCap - s.msc.wbufFill)
    (hsrc : buf + n ≤ s.cfg.memSize) (hdst : s.msc.wbufPtr + s.msc.wbufFill + n ≤ s.cfg.memSize) :
    acceptPacket s buf n = .next (armOut (dataAdded s buf n)) := by
  rw [acceptPacket_eq, if_neg (not_or.2 ⟨Nat.not_lt.2 h1, Nat.not_lt.2 h2⟩), copyMem_ok hsrc hdst]
  rfl

theorem acceptPacket_tooLarge (h : s.msc.intentLen - s.msc.transferred < n ∨ s.msc.wbufCap - s.msc.wbufFill < n)
    (buf : Nat) : acceptPacket s buf n = .next (raise s .localProtocolMsc) := if_pos h

theorem dataAdded_frame (u : State) (buf n : Nat) : dataAdded u buf n =
    { u with
      mem := Memory.writeBytes u.mem (u.msc.wbufPtr + u.msc.wbufFill) (u.bytes buf n), msc := u.msc.packetAdded n
      outputs := u.outputs ++ (if u.msc.wbufFill + n = u.msc.wbufCap ∨ u.msc.transferred + n = u.msc.intentLen then
        [.drvWriteBuffer u.msc.wcb true (u.msc.wbufFill + n)] else []) } := by
  rw [dataAdded, packetAdded_frame]
  rfl

/-- What a packet that fits leaves of `u`, told of a state `s` with the same endpoint table and the same memory. -/
structure PacketTaken (s u t : State) (buf n : Nat) : Prop where
  copied : Copied s t (u.msc.wbufPtr + u.msc.wbufFill) buf n
  outside : SameMemoryOutside s t (u.msc.wbufPtr + u.msc.wbufFill) n
  offers : Offers s t s.cfg.mscOut .out (s.nextBuf s.cfg.mscOut .out) (s.cfg.mps s.cfg.mscOut .out)
  dirs : SameDirsBut s t s.cfg.mscOut .out
  msc : t.msc = u.msc.packetAdded n
  outputs : t.outputs = u.outputs ++
    (if u.msc.wbufFill + n = u.msc.wbufCap ∨ u.msc.transferred + n = u.msc.intentLen then
      [.drvWriteBuffer u.msc.wcb true (u.msc.wbufFill + n)] else [])
  frame : t = { u with eps := t.eps, mem := t.mem, msc := t.msc, outputs := t.outputs }

theorem armOut_offers_of_sameDir (h : SameDir s u s.cfg.mscOut .out) (hc : u.dev.configurationValue ≠ 0)
    (hcl : s.clear s.cfg.mscOut .out) :
    Offers s (armOut u) s.cfg.mscOut .out (s.nextBuf s.cfg.mscOut .out) (s.cfg.mps s.cfg.mscOut .out) := by
  have hoff := armOut_offers (s := u) hc (by rw [h.cfg]; exact h.clear.2 hcl)
  rw [h.cfg, h.nextBuf] at hoff
  exact h.offers hoff

theorem acceptPacket_taken (h : SameEps s u) (hmem : u.mem = s.mem) (hm : s.memoryOk)
    (hc : s.dev.configurationValue ≠ 0) (hcl : s.clear s.cfg.mscOut .out)
    (h1 : n ≤ u.msc.intentLen - u.msc.transferred) (h2 : n ≤ u.msc.wbufCap - u.msc.wbufFill)
    (hsrc : buf + n ≤ s.cfg.memSize) (hdst : u.msc.wbufPtr + u.msc.wbufFill + n ≤ s.cfg.memSize) :
    ∃ t, acceptPacket u buf n = .next t ∧ PacketTaken s u t buf n := by
  have hst : (armOut (dataAdded u buf n)).mem =
      Memory.writeBytes s.mem (u.msc.wbufPtr + u.msc.wbufFill) (s.bytes buf n) := by
    rw [armOut_frame, dataAdded_frame, hmem, bytes_congr hmem]
  have heps : SameEps s (dataAdded u buf n) := by
    rw [dataAdded_frame]
    exact ⟨h.cfg, h.eps, h.configurationValue⟩
  have hdirs := heps.dirsBut (armOut_dirsBut _)
  rw [heps.cfg] at hdirs
  refine ⟨_, acceptPacket_fits h1 h2 (h.cfg ▸ hsrc) (h.cfg ▸ hdst), copied_of_stored hm hst,
    sameOutside_of_copied hm hst, armOut_offers_of_sameDir (heps.dir ..) (heps.configurationValue ▸ hc) hcl,
    hdirs, ?_, ?_, ?_⟩
  · rw [armOut_msc, dataAdded_frame]
  · rw [armOut_frame, dataAdded_frame]
  · rw [armOut_frame, dataAdded_frame]

/-- The protocol error of a packet that does not fit, before bulk OUT is stalled (R204). -/
def overrun (u : State) : State :=
  { u with
    outputs := u.outputs ++ unwound u.msc
    msc := { u.msc with op := .none, status := phaseError, residue := residueOf u.msc.requested u.msc.transferred } }

theorem localProtocolMsc_overrun (u : State) : raise u .localProtocolMsc = stallMsc (overrun u) .out := by
  rw [localProtocolMsc_eq, stallWith_eq, unwind_eq]
  rfl

theorem acceptPacket_stalled (h : SameEps s u) (hmem : u.mem = s.mem) (hq : u.tcq = s.tcq) (hwf : s.cfg.wf = true)
    (hc : s.dev.configurationValue ≠ 0) (hh : (s.epDir s.cfg.mscOut .out).halted = false)
    (hn : u.msc.intentLen - u.msc.transferred < n ∨ u.msc.wbufCap - u.msc.wbufFill < n) (buf : Nat) :
    ∃ t, acceptPacket u buf n = .next t ∧ Stalls s t .out (overrun u).msc ∧
      t.outputs = u.outputs ++ unwound u.msc ∧
      t = { u with eps := t.eps, tcq := t.tcq, msc := t.msc, outputs := t.outputs } := by
  have heps : SameEps s (overrun u) := ⟨h.cfg, h.eps, h.configurationValue⟩
  obtain ⟨hst, hframe⟩ := stallMsc_stalls (d := .out) heps hmem hq hwf hc hh
  refine ⟨_, (acceptPacket_tooLarge hn buf).trans (congrArg _ (localProtocolMsc_overrun u)), hst, ?_, ?_⟩
  · rw [hframe]
    rfl
  · rw [hframe]
    rfl

end

/-! ## `EV_BLOCK_READY` -/

/-- The driver's block on loan to the pump (R198). -/
def blockLent (s : State) (ptr len : Nat) : State :=
  (s.setMsc { s.msc with txPtr := ptr, txRem := min len (s.msc.intentLen - s.msc.transferred) }).lendBlock (ptr, len)

theorem exec_evBlockReady (s : State) (ptr len : Nat) : exec (.evBlockReady ptr len) s =
    if s.msc.state = .dataIn ∧ s.msc.txSrc = .driver ∧ s.msc.op = .read ∧ s.msc.inArmed = false ∧
        s.msc.txRem = 0 ∧ len > 0 then
      if min len (s.msc.intentLen - s.msc.transferred) = 0 then .next s else pumpIn (blockLent s ptr len)
    else .refused .notificationRequire := rfl

/-- Settles O31: the require of R198, the intent already met, and `pump_in` on the block lent. -/
theorem blockReadyPumpsPacket : Obligations.BlockReadyPumpsPacket := by
  unfold Obligations.BlockReadyPumpsPacket
  intro s ptr len
  dsimp only
  refine ⟨fun hno => if_neg hno, fun hok heq => ?_, fun hok hm hwf hc hcl hlt hsrc hdst => ?_⟩
  · rw [exec_evBlockReady, if_pos hok, if_pos (by rw [heq, Nat.sub_self, Nat.min_zero])]
  have heps : SameEps s (blockLent s ptr len) := ⟨rfl, rfl, rfl⟩
  obtain ⟨-, hsrcd, -, -, -, hlen⟩ := id hok
  have hpos : min len (s.msc.intentLen - s.msc.transferred) ≠ 0 := by omega
  have hp : (blockLent s ptr len).packet = s.bytes ptr (blockLent s ptr len).packetLen := packet_driver hsrcd
  have hbuf : (blockLent s ptr len).nextBuf s.cfg.mscIn .inp = s.nextBuf s.cfg.mscIn .inp := (heps.dir ..).nextBuf
  have hgo := packetSent_goesOut (heps.dir ..) rfl hm hc hcl (by rw [hp, State.length_bytes])
  have hnext : pumpIn (blockLent s ptr len) = .next (packetSent (blockLent s ptr len)) :=
    pumpIn_driver hsrcd hsrc (by rw [← hbuf] at hdst; exact hdst)
  refine ⟨_, ?_, hgo.msc, hgo.offers, heps.dirsBut hgo.dirs, ?_, hgo.outside, ?_⟩
  · rw [exec_evBlockReady, if_pos hok, if_neg hpos, hnext]
  · exact copied_of_stored hm (hp ▸ hgo.mem)
  · rw [hgo.msc]
    exact hgo.frame

/-! ## `EV_READ_COMPLETE` -/

theorem readEnded_eq (s : State) (ok : Bool) : readEnded s ok =
    let fails := ok = false ∨ s.msc.transferred + s.msc.txRem + s.msc.inFlight < s.msc.intentLen
    { s with
      msc := { s.msc with
        op := .none, status := if fails then 1 else s.msc.status, txRem := if fails then 0 else s.msc.txRem }
      sense := if fails then s.cfg.sense .readError else s.sense } := by
  dsimp only
  unfold readEnded
  split
  · rfl
  · rfl

theorem exec_evReadComplete {s : State} {ok : Bool} (hs : s.msc.state = .dataIn) (hop : s.msc.op = .read) :
    exec (.evReadComplete ok) s =
      if (readEnded s ok).msc.inArmed then .next (readEnded s ok) else finishIn (readEnded s ok) := if_pos ⟨hs, hop⟩

/-- Settles O32: the require of R199, the outcome recorded, and the end of the data phase where no packet is in
flight. -/
theorem readCompleteRecordsOutcome : Obligations.ReadCompleteRecordsOutcome := by
  unfold Obligations.ReadCompleteRecordsOutcome
  intro s ok
  dsimp only
  have heq := readEnded_eq s ok
  dsimp only at heq
  have heps : SameEps s (readEnded s ok) := by rw [heq]; exact ⟨rfl, rfl, rfl⟩
  have harmed : (readEnded s ok).msc.inArmed = s.msc.inArmed := by rw [heq]
  refine ⟨fun hno => if_neg hno, fun hs hop hi => ?_, fun hs hop hi hlt hwf hc hh => ?_,
    fun hs hop hi hle ha hwf hm hc hcl hsp => ?_⟩
  · rw [exec_evReadComplete hs hop, if_pos (harmed.trans hi), heq]
  · obtain ⟨t, hnext, hst, hframe⟩ := finishIn_stalled heps (by rw [heq]) (by rw [heq]) hwf hc hh
      (by rw [heq]; exact hlt)
    refine ⟨t, ?_, ?_, hst.tcq, hst.halts, hst.dirs, hst.memory, ?_⟩
    · rw [exec_evReadComplete hs hop, harmed, hi, ← hnext]
      rfl
    · rw [hst.msc, heq]
    · rw [heq] at hframe
      exact hframe
  · obtain ⟨t, hnext, hgo⟩ := finishIn_sent heps (by rw [heq]) hwf hm hc hcl hsp (by rw [heq]; exact ha)
      (harmed.trans hi) (by rw [heq]; exact hle)
    refine ⟨t, ?_, hgo.sends (by rw [heq]), ?_, heps.dirsBut hgo.dirs, ?_⟩
    · rw [exec_evReadComplete hs hop, harmed, hi, ← hnext]
      rfl
    · rw [hgo.msc, heq]
      rfl
    · have hframe := hgo.frame
      rw [heq] at hframe
      rw [hgo.msc, heq]
      exact hframe

/-! ## `EV_WRITE_DATA_HANDLED` -/

/-- The buffer empty again (R205). -/
def bufferReopened (s : State) : State := s.setMsc { s.msc with awaitingDrain := false, wbufFill := 0 }

/-- The packet held meanwhile no longer held. -/
def heldTaken (s : State) : State := s.setMsc { s.msc with awaitingDrain := false, wbufFill := 0, missed := 0 }

theorem exec_evWriteDataHandled {s : State}
    (h : s.msc.state = .dataOut ∧ s.msc.op = .write ∧ s.msc.awaitingDrain = true) : exec .evWriteDataHandled s =
      if s.msc.missed = 1 then acceptPacket (heldTaken s) s.msc.missedPtr s.msc.missedLen
      else .next (bufferReopened s) := if_pos h

/-- Settles O33: the require of R205, the buffer reopened, and the held packet taken as any other (R202, R204). -/
theorem writeDataHandledReopensBuffer : Obligations.WriteDataHandledReopensBuffer := by
  unfold Obligations.WriteDataHandledReopensBuffer
  intro s
  dsimp only
  have heps : SameEps s (heldTaken s) := ⟨rfl, rfl, rfl⟩
  refine ⟨fun hno => if_neg hno, fun hok hheld => ?_, fun hok hheld hwf hm hc hcl h1 h2 hsrc hdst => ?_,
    fun hok hheld hwf hc hh hn => ?_⟩
  · rw [exec_evWriteDataHandled hok, if_neg (by rw [hheld]; decide)]
    rfl
  · obtain ⟨t, hnext, htaken⟩ := acceptPacket_taken heps rfl hm hc hcl h1 h2 hsrc hdst
    refine ⟨t, ?_, ?_, ?_, htaken.copied, htaken.outside, htaken.offers, htaken.dirs, htaken.frame⟩
    · rw [exec_evWriteDataHandled hok, if_pos hheld, hnext]
    · rw [htaken.msc]
      simp [Msc.packetAdded, heldTaken, State.setMsc]
    · rw [htaken.outputs]
      simp [heldTaken, State.setMsc]
  · obtain ⟨t, hnext, hst, hout, hframe⟩ := acceptPacket_stalled heps rfl rfl hwf hc hh hn s.msc.missedPtr
    obtain ⟨-, hop, -⟩ := id hok
    refine ⟨t, ?_, hst.msc, ?_, hst.tcq, hst.halts, hst.dirs, hst.memory, hframe⟩
    · rw [exec_evWriteDataHandled hok, if_pos hheld, hnext]
    · rw [hout, unwound]
      simp [heldTaken, State.setMsc, hop]

/-! ## `EV_WRITE_COMPLETE` -/

theorem writeEnded_eq (s : State) (ok : Bool) : writeEnded s ok =
    { s with
      msc := { s.msc with
        op := .none, awaitingDrain := false, missed := 0, status := if ok then s.msc.status else 1
        residue := residueOf s.msc.requested s.msc.transferred }
      sense := if ok then s.sense else s.cfg.sense .writeError } := by
  cases ok <;> rfl

theorem CswGoesOut.cfg {s u t : State} {b : List Byte} (h : CswGoesOut s u t b) : t.cfg = u.cfg := by rw [h.frame]

/-- Bulk OUT offered again after the CSW. -/
theorem CswGoesOut.reoffered {s u t : State} {b : List Byte} (h : CswGoesOut s u t b) {r : BitVec 32} {st : Byte}
    (hb : b = cswBytes s.msc.currentTag r st) (hcfg : u.cfg = s.cfg) : SendsCsw s (armOut t) r st := by
  obtain ⟨h1, h2, h3, h4, h5, h6⟩ := h.sends hb
  have hmem : (armOut t).mem = t.mem := by rw [armOut_frame]
  have hdir : (armOut t).epDir s.cfg.mscIn .inp = t.epDir s.cfg.mscIn .inp := by
    rw [← h.cfg.trans hcfg]
    exact armOut_epDir_mscIn t
  refine ⟨?_, ?_, ?_, (Offers.congr rfl rfl hdir).2 h4, ?_, ?_⟩
  · rw [armOut_msc, h1]
  · rw [armOut_msc, bytes_congr hmem, h2]
  · exact SameMemoryOutside.congr rfl hmem h3
  · rw [armOut_msc, h5]
  · rw [armOut_msc, h6]

/-- The notification is accepted (R206). -/
def State.acceptsWriteEnd (s : State) (ok : Bool) : Prop :=
  s.msc.state = .dataOut ∧ s.msc.op = .write ∧
    (ok = true → s.msc.transferred = s.msc.intentLen ∧ s.msc.awaitingDrain = false)

theorem exec_evWriteComplete {s : State} {ok : Bool} (h : s.acceptsWriteEnd ok) : exec (.evWriteComplete ok) s =
    if s.msc.transferred < s.msc.requested then .next (stallMsc (writeEnded s ok) .out)
    else thenRun (sendCsw (writeEnded s ok)) fun u => .next (armOut u) := by
  have ht : (writeEnded s ok).msc.transferred = s.msc.transferred := by rw [writeEnded_eq]
  have hr : (writeEnded s ok).msc.requested = s.msc.requested := by rw [writeEnded_eq]
  exact (execEvWriteComplete_eq s ok).trans ((if_pos h).trans (by rw [ht, hr]))

/-- Settles O34: the require of R206, the outcome recorded, and the stall of bulk OUT or the CSW. -/
theorem writeCompleteEndsDataPhase : Obligations.WriteCompleteEndsDataPhase := by
  unfold Obligations.WriteCompleteEndsDataPhase
  intro s ok
  dsimp only
  have heq := writeEnded_eq s ok
  have heps : SameEps s (writeEnded s ok) := by rw [heq]; exact ⟨rfl, rfl, rfl⟩
  refine ⟨fun hno => if_neg hno, fun hok hlt hwf hc hh => ?_, fun hok hle ha hi hwf hm hc hcl hsp => ?_⟩
  · obtain ⟨hst, hframe⟩ := stallMsc_stalls (d := .out) heps (by rw [heq]) (by rw [heq]) hwf hc hh
    refine ⟨_, (exec_evWriteComplete hok).trans (if_pos hlt), ?_, hst.tcq, hst.halts, hst.dirs, hst.memory, ?_⟩
    · rw [hst.msc, heq]
      rfl
    · rw [hframe, heq]
  · obtain ⟨hnext, hgo⟩ := sendCsw_goesOut (heps.dir ..) (by rw [heq]) hwf hm
      (heps.configurationValue ▸ hc) hcl hsp (by rw [heq]; exact ha) (by rw [heq]; exact hi)
    generalize cswOffered (writeEnded s ok) = t at hnext hgo
    have hdirs : SameDirsBut s t s.cfg.mscIn .inp := heps.dirsBut hgo.dirs
    have hout : SameDir s t s.cfg.mscOut .out := ⟨hgo.cfg.trans heps.cfg, hdirs _ _ (.inr (by simp))⟩
    have hct : t.dev.configurationValue ≠ 0 := by rw [hgo.frame, heq]; exact hc
    have hmsc : t.msc = { s.msc with
        op := .none, awaitingDrain := false, missed := 0, status := if ok then s.msc.status else 1, residue := 0
        csw := t.msc.csw, state := .csw, cswArmed := true } := by
      rw [hgo.msc, heq, residueOf_eq_zero hle]
    refine ⟨armOut t, ?_, hgo.reoffered ?_ heps.cfg, ?_, fun hclo => ⟨armOut_offers_of_sameDir hout hct hclo, ?_⟩,
      fun hno => ?_, ?_⟩
    · rw [exec_evWriteComplete hok, if_neg (Nat.not_lt.2 hle), hnext]
      rfl
    · rw [heq, State.cswDue, residueOf_eq_zero hle]
      rfl
    · rw [armOut_msc]
      exact hmsc
    · intro e d hne
      obtain ⟨hin, hon⟩ := ne_of_not_isMsc hne
      rw [← hdirs e d hin]
      exact armOut_dirsBut t e d (by rw [hout.cfg]; exact hon)
    · rw [armOut_of_not_clear (by rw [hout.cfg]; exact mt hout.clear.1 hno)]
      exact hdirs
    · have hframe := hgo.frame
      rw [heq] at hframe
      rw [armOut_frame, hframe]

end Sys2Proof.Machine
end

section
/-! # The bulk completions (43_msc_bot.md R171 to R173, R192, R197, R202)

What the transport makes of a completion of its own endpoints: O46 to O48. -/

namespace Sys2Proof.Machine

section
variable {s : State} {rest : List Tc}

theorem handle_mscIn (hwf : s.cfg.wf = true) (n buf : Nat) :
    handle s ⟨s.cfg.mscIn, .inp⟩ n buf = onMscIn s := by
  obtain ⟨h0, -⟩ := Config.wf_mscIn hwf
  simp [handle, h0, Tc.d, Pid.dir]

theorem handle_mscOut (hwf : s.cfg.wf = true) (n buf : Nat) :
    handle s ⟨s.cfg.mscOut, .out⟩ n buf = onMscOut s n buf := by
  obtain ⟨h0, -⟩ := Config.wf_mscOut hwf
  simp [handle, h0, Tc.d, Pid.dir]

theorem exec_mscIn (hwf : s.cfg.wf = true) (hi : s.tcIrqEn = true) (hq : s.tcq = ⟨s.cfg.mscIn, .inp⟩ :: rest) :
    exec .mscIn s = onMscIn (consumed s ⟨s.cfg.mscIn, .inp⟩ rest) :=
  (consumeTc_head hi hq).trans (handle_mscIn (s := consumed s ⟨s.cfg.mscIn, .inp⟩ rest) hwf ..)

theorem exec_mscOut (hwf : s.cfg.wf = true) (hi : s.tcIrqEn = true) (hq : s.tcq = ⟨s.cfg.mscOut, .out⟩ :: rest) :
    exec .mscOut s = onMscOut (consumed s ⟨s.cfg.mscOut, .out⟩ rest)
      ((s.epDir s.cfg.mscOut .out).bd (s.rd s.cfg.mscOut .out)).count
      ((s.epDir s.cfg.mscOut .out).bd (s.rd s.cfg.mscOut .out)).addr :=
  (consumeTc_head hi hq).trans (handle_mscOut (s := consumed s ⟨s.cfg.mscOut, .out⟩ rest) hwf ..)

end

/-! ## `MSC_IN` -/

section
variable {s : State}

theorem onMscIn_taken (hs : s.msc.state = .csw) (ha : s.msc.cswArmed = true) :
    onMscIn s = .next (toMscState s .idle) := by
  unfold onMscIn
  rw [hs]
  exact if_pos ha

theorem onMscIn_sent (hs : s.msc.state = .dataIn) (hi : s.msc.inArmed = true) : onMscIn s = onDataInSent s := by
  unfold onMscIn
  rw [hs]
  exact if_pos hi

theorem onDataInSent_more (hr : 0 < s.msc.txRem) : onDataInSent s = pumpIn (packetCounted s) := if_pos hr

theorem onDataInSent_dataEnd (hr : s.msc.txRem = 0) : onDataInSent s =
    if (blockReported (packetCounted s)).msc.txSrc = .internal ∨ (blockReported (packetCounted s)).msc.op = .none then
      finishIn (blockReported (packetCounted s))
    else .next (blockReported (packetCounted s)) := if_neg (Nat.not_lt.2 hr.le)

theorem onDataInSent_blockEnd (hr : s.msc.txRem = 0) (hsrc : s.msc.txSrc = .driver) (hop : s.msc.op = .read) :
    onDataInSent s = .next ((packetCounted s).emit (.drvBlockSent true)) := by
  have hrep : blockReported (packetCounted s) = (packetCounted s).emit (.drvBlockSent true) := if_pos ⟨hsrc, hop⟩
  rw [onDataInSent_dataEnd hr, hrep, if_neg]
  rintro (h | h)
  · exact absurd (hsrc.symm.trans h) nofun
  · exact absurd (hop.symm.trans h) nofun

theorem onDataInSent_last (hr : s.msc.txRem = 0) (h : s.msc.txSrc = .internal ∨ s.msc.op = .none) :
    onDataInSent s = finishIn (packetCounted s) := by
  have hno : ¬((packetCounted s).msc.txSrc = .driver ∧ (packetCounted s).msc.op = .read) := by
    rintro ⟨hsrc, hop⟩
    obtain h | h := h
    · exact absurd (hsrc.symm.trans h) nofun
    · exact absurd (hop.symm.trans h) nofun
  have hrep : blockReported (packetCounted s) = packetCounted s := if_neg hno
  rw [onDataInSent_dataEnd hr, hrep]
  exact if_pos h

theorem packetCounted_sameEps (s : State) : SameEps s (packetCounted s) := ⟨rfl, rfl, rfl⟩

/-- The transport's registers after the next packet is armed, where one was in flight. -/
theorem packetCounted_packetSent (hi : s.msc.inArmed = true) (n : Nat) : (packetCounted s).msc.packetSent n =
    { s.msc with
      transferred := s.msc.transferred + s.msc.txLast, txPtr := s.msc.txPtr + n, txRem := s.msc.txRem - n
      txLast := n } := by
  simp [Msc.packetSent, packetCounted, State.setMsc, hi]

end

/-! ## The next packet of a read -/

/-- The completion of bulk IN consumed, and its packet counted. -/
def sentCounted (s : State) (rest : List Tc) : State := packetCounted (consumed s ⟨s.cfg.mscIn, .inp⟩ rest)

section
variable {s : State} {rest : List Tc}

theorem sentCounted_nextBuf (s : State) (rest : List Tc) :
    (sentCounted s rest).nextBuf s.cfg.mscIn .inp = s.nextBuf s.cfg.mscIn .inp :=
  ((packetCounted_sameEps _).dir ..).nextBuf.trans (consumed_nextBuf (x := ⟨s.cfg.mscIn, .inp⟩) nofun)

/-- What `MSC_IN` does while bytes remain, where the next packet can be copied. -/
theorem exec_mscIn_packet (hwf : s.cfg.wf = true) (hirq : s.tcIrqEn = true)
    (hq : s.tcq = ⟨s.cfg.mscIn, .inp⟩ :: rest) (hs : s.msc.state = .dataIn) (hi : s.msc.inArmed = true)
    (hr : 0 < s.msc.txRem) (hpump : pumpIn (sentCounted s rest) = .next (packetSent (sentCounted s rest))) :
    exec .mscIn s = .next (packetSent (sentCounted s rest)) :=
  (exec_mscIn hwf hirq hq).trans ((onMscIn_sent (s := consumed s ⟨s.cfg.mscIn, .inp⟩ rest) hs hi).trans
    ((onDataInSent_more (s := consumed s ⟨s.cfg.mscIn, .inp⟩ rest) hr).trans hpump))

/-- What the next packet leaves, told of the state before the completion was consumed. -/
structure NextPacket (s : State) (rest : List Tc) (t : State) : Prop where
  msc : t.msc = (packetCounted s).msc.packetSent (sentCounted s rest).packetLen
  mem : t.mem = Memory.writeBytes s.mem (s.nextBuf s.cfg.mscIn .inp) (sentCounted s rest).packet
  offers : ReadOnceThenOffers s t s.cfg.mscIn .inp (s.nextBuf s.cfg.mscIn .inp) (sentCounted s rest).packetLen
  dirs : SameDirsBut s t s.cfg.mscIn .inp
  frame : t = { s with eps := t.eps, tcq := rest, mem := t.mem, msc := t.msc }

theorem packetSent_next (hm : s.memoryOk) (hc : s.dev.configurationValue ≠ 0) (h1 : s.oneUnread s.cfg.mscIn .inp)
    (hlen : (sentCounted s rest).packet.length = (sentCounted s rest).packetLen) :
    NextPacket s rest (packetSent (sentCounted s rest)) := by
  have hp : (⟨s.cfg.mscIn, .inp⟩ : Tc).pid ≠ .setup := nofun
  have heps := packetCounted_sameEps (consumed s ⟨s.cfg.mscIn, .inp⟩ rest)
  have hbuf : (consumed s ⟨s.cfg.mscIn, .inp⟩ rest).nextBuf s.cfg.mscIn .inp = s.nextBuf s.cfg.mscIn .inp :=
    consumed_nextBuf hp
  have hgo : PacketGoesOut (consumed s ⟨s.cfg.mscIn, .inp⟩ rest) (sentCounted s rest)
      (packetSent (sentCounted s rest)) := packetSent_goesOut (heps.dir ..) rfl hm hc (consumed_clear hp h1) hlen
  have hoff := hgo.offers
  have hmem := hgo.mem
  rw [show (consumed s ⟨s.cfg.mscIn, .inp⟩ rest).cfg = s.cfg from rfl, hbuf] at hoff hmem
  refine ⟨hgo.msc, hmem, readOnceThenOffers_of_offers hp hoff,
    dirsBut_of_consumed (x := ⟨s.cfg.mscIn, .inp⟩) (heps.dirsBut hgo.dirs), ?_⟩
  rw [hgo.msc]
  exact hgo.frame

end

/-- Settles O46: the rule of each state and source, on the state with the completion consumed. -/
theorem bulkInCompletionAdvancesTransport : Obligations.BulkInCompletionAdvancesTransport := by
  unfold Obligations.BulkInCompletionAdvancesTransport
  intro s rest hwf hirq hq
  dsimp only
  have hexec := exec_mscIn hwf hirq hq
  have hp : (⟨s.cfg.mscIn, .inp⟩ : Tc).pid ≠ .setup := nofun
  have hbuf : (consumed s ⟨s.cfg.mscIn, .inp⟩ rest).nextBuf s.cfg.mscIn .inp = s.nextBuf s.cfg.mscIn .inp :=
    consumed_nextBuf hp
  have heps := packetCounted_sameEps (consumed s ⟨s.cfg.mscIn, .inp⟩ rest)
  have hread : ReadOnce s (consumed s ⟨s.cfg.mscIn, .inp⟩ rest) s.cfg.mscIn .inp := consumed_readOnce _ _ _ hp
  have hdirs : SameDirsBut s (consumed s ⟨s.cfg.mscIn, .inp⟩ rest) s.cfg.mscIn .inp := consumed_dirsBut _ _ _
  refine ⟨fun hs ha => ?_, fun hs hi hr hsrc hop => ?_, fun hs hi hr hsrc hm hc h1 h2 h3 => ?_,
    fun hs hi hr hsrc hm hc h1 h2 h3 => ?_, fun hs hi hr hend hc h1 => ⟨fun hlt => ?_, fun hle ha hm hsp => ?_⟩⟩
  · exact ⟨_, hexec.trans (onMscIn_taken (s := consumed s ⟨s.cfg.mscIn, .inp⟩ rest) hs ha), rfl, hread, hdirs,
      sameMemory_of rfl, rfl⟩
  · refine ⟨_, hexec.trans ((onMscIn_sent (s := consumed s ⟨s.cfg.mscIn, .inp⟩ rest) hs hi).trans
      (onDataInSent_blockEnd hr hsrc hop)), rfl, rfl, hread, hdirs, sameMemory_of rfl, rfl⟩
  · have hpk : (sentCounted s rest).packet = s.bytes s.msc.txPtr (sentCounted s rest).packetLen := packet_driver hsrc
    have hpump := pumpIn_driver (u := sentCounted s rest) hsrc h2
      (by rw [← sentCounted_nextBuf s rest] at h3; exact h3)
    have hnext := packetSent_next (rest := rest) hm hc h1 (by rw [hpk, State.length_bytes])
    have hmem := hnext.mem
    rw [hpk] at hmem
    exact ⟨_, exec_mscIn_packet hwf hirq hq hs hi hr hpump, hnext.msc.trans (packetCounted_packetSent hi _),
      hnext.offers, copied_of_stored hm hmem, sameOutside_of_copied hm hmem, hnext.dirs, hnext.frame⟩
  · have hpk : (sentCounted s rest).packet = (s.msc.resp.drop s.msc.txPtr).take (sentCounted s rest).packetLen :=
      packet_internal hsrc
    have hpump := pumpIn_internal (u := sentCounted s rest) hsrc h2
      (by rw [← sentCounted_nextBuf s rest] at h3; exact h3)
    have hlen := length_packet_internal (u := sentCounted s rest) hsrc h2
    have hnext := packetSent_next (rest := rest) hm hc h1 hlen
    have hbytes := bytes_of_stored hm hnext.mem
    have hout := sameOutside_of_stored hm hnext.mem
    rw [hlen] at hbytes hout
    exact ⟨_, exec_mscIn_packet hwf hirq hq hs hi hr hpump, hnext.msc.trans (packetCounted_packetSent hi _),
      hnext.offers, hbytes.trans hpk, hout, hnext.dirs, hnext.frame⟩
  · have hcl : (consumed s ⟨s.cfg.mscIn, .inp⟩ rest).clear s.cfg.mscIn .inp := consumed_clear hp h1
    obtain ⟨t, hnext, hst, hframe⟩ := finishIn_stalled heps rfl rfl hwf hc hcl.1 hlt
    refine ⟨_, t, ?_, hread, rfl, hst.halts, hst.msc, hst.tcq,
      dirsBut_of_consumed (x := ⟨s.cfg.mscIn, .inp⟩) hst.dirs, hst.memory, hframe⟩
    exact hexec.trans ((onMscIn_sent (s := consumed s ⟨s.cfg.mscIn, .inp⟩ rest) hs hi).trans
      ((onDataInSent_last (s := consumed s ⟨s.cfg.mscIn, .inp⟩ rest) hr hend).trans hnext))
  · have hcl : (consumed s ⟨s.cfg.mscIn, .inp⟩ rest).clear s.cfg.mscIn .inp := consumed_clear hp h1
    obtain ⟨t, hnext, hgo⟩ := finishIn_sent heps rfl hwf hm hc hcl (hbuf.symm ▸ hsp) ha rfl hle
    have hoff := hgo.offers
    have hbytes := hgo.bytes
    have hout := hgo.outside
    rw [show (consumed s ⟨s.cfg.mscIn, .inp⟩ rest).cfg = s.cfg from rfl, hbuf] at hoff hbytes hout
    refine ⟨t, ?_, readOnceThenOffers_of_offers hp hoff, hbytes, hout,
      dirsBut_of_consumed (x := ⟨s.cfg.mscIn, .inp⟩) hgo.dirs, hgo.msc, ?_⟩
    · exact hexec.trans ((onMscIn_sent (s := consumed s ⟨s.cfg.mscIn, .inp⟩ rest) hs hi).trans
        ((onDataInSent_last (s := consumed s ⟨s.cfg.mscIn, .inp⟩ rest) hr hend).trans hnext))
    · rw [hgo.msc]
      exact hgo.frame

/-! ## `MSC_OUT` in `DATA_OUT` -/

section
variable {s : State}

theorem onMscOut_data (hs : s.msc.state = .dataOut) (n buf : Nat) : onMscOut s n buf = onDataOutPacket s n buf := by
  unfold onMscOut
  rw [hs]

theorem onDataOutPacket_held (hd : s.msc.awaitingDrain = true) (hm : s.msc.missed = 0) (n buf : Nat) :
    onDataOutPacket s n buf = .next (s.setMsc { s.msc with missed := 1, missedPtr := buf, missedLen := n }) := by
  unfold onDataOutPacket
  rw [if_pos hd, if_pos hm]

theorem onDataOutPacket_accepts (hd : s.msc.awaitingDrain = false) (n buf : Nat) :
    onDataOutPacket s n buf = acceptPacket s buf n := if_neg (by rw [hd]; decide)

theorem Msc.packetAdded_undrained {m : Msc} (hd : m.awaitingDrain = false) (n : Nat) : m.packetAdded n =
    { m with
      wbufFill := m.wbufFill + n, transferred := m.transferred + n
      awaitingDrain := decide (m.wbufFill + n = m.wbufCap ∨ m.transferred + n = m.intentLen) } := by
  simp [Msc.packetAdded, hd]

end

/-- Settles O47: a packet held, taken (R202), or a protocol error (R204), on the state with the completion
consumed. -/
theorem bulkOutDataIsAccumulated : Obligations.BulkOutDataIsAccumulated := by
  unfold Obligations.BulkOutDataIsAccumulated
  intro s rest hwf hirq hq hs hc h1
  dsimp only
  have hexec := (exec_mscOut hwf hirq hq).trans (onMscOut_data (s := consumed s ⟨s.cfg.mscOut, .out⟩ rest) hs ..)
  have hp : (⟨s.cfg.mscOut, .out⟩ : Tc).pid ≠ .setup := nofun
  have hbuf : (consumed s ⟨s.cfg.mscOut, .out⟩ rest).nextBuf s.cfg.mscOut .out = s.nextBuf s.cfg.mscOut .out :=
    consumed_nextBuf hp
  have hcl : (consumed s ⟨s.cfg.mscOut, .out⟩ rest).clear s.cfg.mscOut .out := consumed_clear hp h1
  have hread : ReadOnce s (consumed s ⟨s.cfg.mscOut, .out⟩ rest) s.cfg.mscOut .out := consumed_readOnce _ _ _ hp
  have hself : SameEps (consumed s ⟨s.cfg.mscOut, .out⟩ rest) (consumed s ⟨s.cfg.mscOut, .out⟩ rest) := .rfl
  refine ⟨fun hd hm => ?_, fun hd hfit hm hsrc hdst => ?_, fun hd hno => ?_⟩
  · exact ⟨_, hexec.trans (onDataOutPacket_held (s := consumed s ⟨s.cfg.mscOut, .out⟩ rest) hd hm ..), rfl,
      hread, consumed_dirsBut s ⟨s.cfg.mscOut, .out⟩ rest, sameMemory_of rfl, rfl⟩
  · obtain ⟨h2, h3⟩ := hfit
    obtain ⟨t, hnext, htaken⟩ := acceptPacket_taken hself rfl hm hc hcl h2 h3 hsrc hdst
    have hoff := htaken.offers
    rw [show (consumed s ⟨s.cfg.mscOut, .out⟩ rest).cfg = s.cfg from rfl, hbuf] at hoff
    exact ⟨t,
      hexec.trans ((onDataOutPacket_accepts (s := consumed s ⟨s.cfg.mscOut, .out⟩ rest) hd ..).trans hnext),
      htaken.msc.trans (Msc.packetAdded_undrained hd _), htaken.outputs, readOnceThenOffers_of_offers hp hoff,
      htaken.copied, htaken.outside, dirsBut_of_consumed (x := ⟨s.cfg.mscOut, .out⟩) htaken.dirs, htaken.frame⟩
  · rw [not_and_or, Nat.not_le, Nat.not_le] at hno
    obtain ⟨t, hnext, hst, hout, hframe⟩ := acceptPacket_stalled hself rfl rfl hwf hc hcl.1 hno
      ((s.epDir s.cfg.mscOut .out).bd (s.rd s.cfg.mscOut .out)).addr
    exact ⟨_, t,
      hexec.trans ((onDataOutPacket_accepts (s := consumed s ⟨s.cfg.mscOut, .out⟩ rest) hd ..).trans hnext),
      hst.msc, hout, hread, rfl, hst.halts, hst.tcq, dirsBut_of_consumed (x := ⟨s.cfg.mscOut, .out⟩) hst.dirs,
      hst.memory, hframe⟩

/-! ## What is no CBW -/

theorem cbwLun_val (w : Cbw) : (cbwLun w).val = w.lun.toNat % 16 := by
  simp [cbwLun, Fin.ofNat, BitVec.extractLsb'_toNat]

theorem cbwCbLength_eq (w : Cbw) : cbwCbLength w = w.cbLength.toNat % 32 := by
  simp [cbwCbLength, BitVec.extractLsb'_toNat]

theorem flags_reserved_iff (w : Cbw) : w.flags.extractLsb' 0 7 = 0 ↔ w.flags.toNat % 128 = 0 := by
  rw [← BitVec.toNat_inj]
  simp [BitVec.extractLsb'_toNat]

/-- The checks of R172. -/
theorem cbwValid_iff (c : Config) (n : Nat) (w : Cbw) : cbwValid c n w = true ↔
    n = 31 ∧ w.signature = 0x43425355 ∧ w.flags.toNat % 128 = 0 ∧ w.lun.toNat % 16 ≤ c.maxLun.val ∧
      1 ≤ w.cbLength.toNat % 32 ∧ w.cbLength.toNat % 32 ≤ 16 := by
  simp only [cbwValid, Bool.and_eq_true, decide_eq_true_eq, beq_iff_eq, flags_reserved_iff, cbwLun_val, cbwCbLength_eq,
    cbwSignature, and_assoc]

section
variable {s : State} {n buf : Nat}

theorem onMscOut_idle (hs : s.msc.state = .idle) (hsp : buf + 31 ≤ s.cfg.memSize) : onMscOut s n buf =
    if cbwValid s.cfg n (Cbw.parse (s.bytes buf (min n 31))) then
      evaluate (latchCbw s (Cbw.parse (s.bytes buf (min n 31))))
    else .next (raise s .badCbw) := by
  unfold onMscOut
  rw [hs]
  exact readMem_ok _ (by omega)

theorem onMscOut_unexpected (hs : s.msc.state = .dataIn ∨ s.msc.state = .stall ∨ s.msc.state = .csw) (n buf : Nat) :
    onMscOut s n buf = .next (raise s .badCbw) := by
  unfold onMscOut
  obtain hs | hs | hs := hs <;> rw [hs]

theorem onMscOut_invalid (hs : s.msc.state = .idle) (hsp : buf + 31 ≤ s.cfg.memSize)
    (h : cbwValid s.cfg n (Cbw.parse (s.bytes buf 31)) = false) : onMscOut s n buf = .next (raise s .badCbw) := by
  rw [onMscOut_idle hs hsp, if_neg]
  intro hv
  have hn := ((cbwValid_iff ..).1 hv).1
  rw [hn, Nat.min_self] at hv
  rw [hn, hv] at h
  cases h

/-! ## `SET_HALT` of a bulk direction by the transport -/

/-- What `SET_HALT` by the transport leaves of one bulk direction (R173): nothing changes where it was halted
already. -/
structure HaltedOnce (s t : State) (e : EpNum) (d : Dir) : Prop where
  halted : (t.epDir e d).halted = true
  halts : (s.epDir e d).halted = false → Halts s t e d
  kept : (s.epDir e d).halted = true → t.epDir e d = s.epDir e d
  dirs : SameDirsBut s t e d
  tcq : t.tcq = s.tcq.filter fun c => !(c.e == e && c.d == d && !(s.epDir e d).halted)
  frame : t = { s with eps := t.eps, tcq := t.tcq }

theorem setHaltIn_haltedOnce {e : EpNum} {d : Dir} (h0 : e ≠ 0) (hn : e.val < s.cfg.nEp)
    (hc : s.dev.configurationValue ≠ 0) : HaltedOnce s (setHaltIn s .msc e d) e d := by
  have hdirs : SameDirsBut s (setHaltIn s .msc e d) e d := fun _ _ h => setHaltIn_epDir_ne _ _ _ _ h
  cases hh : (s.epDir e d).halted with
  | false =>
    rw [setHaltIn_msc h0 hn (State.configured_of hc) hh] at hdirs ⊢
    have hhalts := halted_halts s e d
    refine ⟨hhalts.2.2.1, fun _ => hhalts, fun h => ?_, hdirs, ?_, rfl⟩
    · exact absurd (hh.symm.trans h) nofun
    · change dropTc s.tcq e d = _
      simp [hh, dropTc]
  | true =>
    have hkeep : setHaltIn s .msc e d = s := by
      obtain h | ⟨-, h, -⟩ := setHaltIn_msc_cases s e d
      · exact h
      · exact absurd (hh.symm.trans h) nofun
    rw [hkeep]
    refine ⟨hh, fun h => absurd (hh.symm.trans h) nofun, fun _ => rfl, fun _ _ _ => rfl, ?_, rfl⟩
    simp [hh]

theorem haltBoth_haltedOnce (hwf : s.cfg.wf = true) (hc : s.dev.configurationValue ≠ 0) :
    ∃ v, HaltedOnce s v s.cfg.mscIn .inp ∧ HaltedOnce v (haltBoth s) s.cfg.mscOut .out := by
  obtain ⟨hi0, hin⟩ := Config.wf_mscIn hwf
  obtain ⟨ho0, hon⟩ := Config.wf_mscOut hwf
  have h1 := setHaltIn_haltedOnce (d := .inp) hi0 hin hc
  have hcfg : (setHaltIn s .msc s.cfg.mscIn .inp).cfg = s.cfg := by rw [h1.frame]
  have hdev : (setHaltIn s .msc s.cfg.mscIn .inp).dev = s.dev := by rw [h1.frame]
  have h2 := setHaltIn_haltedOnce (s := setHaltIn s .msc s.cfg.mscIn .inp) (e := s.cfg.mscOut) (d := .out) ho0
    (by rw [hcfg]; exact hon) (by rw [hdev]; exact hc)
  refine ⟨_, h1, ?_⟩
  rw [haltBoth, hcfg]
  exact h2

/-- Both bulk directions halted; one that was halted already is as it was. -/
structure BothHalted (s t : State) : Prop where
  inp : (t.epDir s.cfg.mscIn .inp).halted = true
  out : (t.epDir s.cfg.mscOut .out).halted = true
  inpHalts : (s.epDir s.cfg.mscIn .inp).halted = false → Halts s t s.cfg.mscIn .inp
  inpKept : (s.epDir s.cfg.mscIn .inp).halted = true → t.epDir s.cfg.mscIn .inp = s.epDir s.cfg.mscIn .inp
  outHalts : (s.epDir s.cfg.mscOut .out).halted = false → Halts s t s.cfg.mscOut .out
  outKept : (s.epDir s.cfg.mscOut .out).halted = true → t.epDir s.cfg.mscOut .out = s.epDir s.cfg.mscOut .out
  others : ∀ e d, s.isMsc e d = false → t.epDir e d = s.epDir e d

/-- What a packet that is no CBW leaves (R173). -/
def badCbwHandled (s : State) : State := toMscState (haltBoth (unwind s)) .nrr

theorem badCbwHandled_epDir (s : State) (e : EpNum) (d : Dir) :
    (badCbwHandled s).epDir e d = (haltBoth (unwind s)).epDir e d := State.setMsc_epDir ..

section
variable (hwf : s.cfg.wf = true) (hc : s.dev.configurationValue ≠ 0)
include hwf hc

theorem badCbwHandled_haltedOnce : ∃ v, HaltedOnce (unwind s) v s.cfg.mscIn .inp ∧
    HaltedOnce v (haltBoth (unwind s)) s.cfg.mscOut .out := by
  have h := haltBoth_haltedOnce (s := unwind s) (by rw [unwind_eq]; exact hwf) (by rw [unwind_eq]; exact hc)
  rw [show (unwind s).cfg = s.cfg by rw [unwind_eq]] at h
  exact h

theorem badCbwHandled_bothHalted : BothHalted s (badCbwHandled s) := by
  obtain ⟨v, h1, h2⟩ := badCbwHandled_haltedOnce hwf hc
  have hu : SameEps s (unwind s) := by rw [unwind_eq]; exact ⟨rfl, rfl, rfl⟩
  have hv : v.cfg = s.cfg := by rw [h1.frame]; exact hu.cfg
  have hin : (haltBoth (unwind s)).epDir s.cfg.mscIn .inp = v.epDir s.cfg.mscIn .inp := h2.dirs _ _ (.inr (by simp))
  have hout : v.epDir s.cfg.mscOut .out = s.epDir s.cfg.mscOut .out :=
    (h1.dirs _ _ (.inr (by simp))).trans (hu.epDir ..)
  refine ⟨?_, ?_, fun hf => ?_, fun hh => ?_, fun hf => ?_, fun hh => ?_, fun e d hne => ?_⟩
  · rw [badCbwHandled_epDir, hin, h1.halted]
  · rw [badCbwHandled_epDir, h2.halted]
  · refine (hu.dir ..).halts ((Halts.congr rfl rfl ?_).2 (h1.halts (by rw [hu.epDir]; exact hf)))
    rw [badCbwHandled_epDir, hin]
  · rw [badCbwHandled_epDir, hin, h1.kept (by rw [hu.epDir]; exact hh), hu.epDir]
  · refine SameDir.halts ⟨hv, hout⟩ ((Halts.congr rfl rfl (badCbwHandled_epDir ..)).2 (h2.halts ?_))
    rw [hout]
    exact hf
  · rw [badCbwHandled_epDir, h2.kept (by rw [hout]; exact hh), hout]
  · obtain ⟨hni, hno⟩ := ne_of_not_isMsc hne
    rw [badCbwHandled_epDir, h2.dirs e d hno, h1.dirs e d hni, hu.epDir]

theorem badCbwHandled_tcq : (badCbwHandled s).tcq = s.tcq.filter fun c =>
    !((c.e == s.cfg.mscIn && c.d == .inp && !(s.epDir s.cfg.mscIn .inp).halted) ||
      (c.e == s.cfg.mscOut && c.d == .out && !(s.epDir s.cfg.mscOut .out).halted)) := by
  obtain ⟨v, h1, h2⟩ := badCbwHandled_haltedOnce hwf hc
  have hdir (e d) : (unwind s).epDir e d = s.epDir e d := unwind_epDir s e d
  have hq : (unwind s).tcq = s.tcq := by rw [unwind_eq]
  change (haltBoth (unwind s)).tcq = _
  rw [h2.tcq, h1.tcq, h1.dirs _ _ (.inr (by simp)), hdir, hdir, hq, List.filter_filter]
  refine congrArg (List.filter · s.tcq) (funext fun c => ?_)
  rw [Bool.not_or, Bool.and_comm]

theorem badCbwHandled_frame : badCbwHandled s =
    { s with
      eps := (badCbwHandled s).eps, tcq := (badCbwHandled s).tcq
      msc := { s.msc.clearTransient with state := .nrr }, outputs := s.outputs ++ unwound s.msc } := by
  obtain ⟨v, h1, h2⟩ := badCbwHandled_haltedOnce hwf hc
  unfold badCbwHandled
  generalize haltBoth (unwind s) = w at h2 ⊢
  rw [h2.frame, h1.frame, unwind_eq]
  rfl

end

end

/-- The packet at bulk OUT's next completion is not a CBW the transport takes (R171, R172). -/
def State.noCbw (s : State) : Prop :=
  let b := (s.epDir s.cfg.mscOut .out).bd (s.rd s.cfg.mscOut .out)
  let w := Cbw.parse (s.bytes b.addr 31)
  s.msc.state = .dataIn ∨ s.msc.state = .stall ∨ s.msc.state = .csw ∨
    (s.msc.state = .idle ∧ b.addr + 31 ≤ s.cfg.memSize ∧
      (b.count ≠ 31 ∨ w.signature ≠ 0x43425355 ∨ w.flags.toNat % 128 ≠ 0 ∨
        s.cfg.maxLun.val < w.lun.toNat % 16 ∨ w.cbLength.toNat % 32 = 0 ∨ 16 < w.cbLength.toNat % 32))

theorem exec_mscOut_noCbw {s : State} {rest : List Tc} (hwf : s.cfg.wf = true) (hirq : s.tcIrqEn = true)
    (hq : s.tcq = ⟨s.cfg.mscOut, .out⟩ :: rest) (hbad : s.noCbw) :
    exec .mscOut s = .next (badCbwHandled (consumed s ⟨s.cfg.mscOut, .out⟩ rest)) := by
  refine (exec_mscOut hwf hirq hq).trans ?_
  obtain hs | hs | hs | ⟨hs, hsp, hno⟩ := hbad
  · exact onMscOut_unexpected (s := consumed s ⟨s.cfg.mscOut, .out⟩ rest) (.inl hs) _ _
  · exact onMscOut_unexpected (s := consumed s ⟨s.cfg.mscOut, .out⟩ rest) (.inr (.inl hs)) _ _
  · exact onMscOut_unexpected (s := consumed s ⟨s.cfg.mscOut, .out⟩ rest) (.inr (.inr hs)) _ _
  · refine onMscOut_invalid (s := consumed s ⟨s.cfg.mscOut, .out⟩ rest) hs hsp (Bool.eq_false_iff.2 fun hv => ?_)
    obtain ⟨h1, h2, h3, h4, h5, h6⟩ := (cbwValid_iff ..).1 hv
    obtain h | h | h | h | h | h := hno
    · exact h h1
    · exact h h2
    · exact h h3
    · exact absurd h4 (Nat.not_le.2 h)
    · exact Nat.one_le_iff_ne_zero.1 h5 h
    · exact absurd h6 (Nat.not_le.2 h)

/-- Settles O48: the packet is no CBW, and what `SET_HALT` by the transport leaves of each bulk direction, on the state
with the completion consumed. -/
theorem badCbwHaltsBothEndpoints : Obligations.BadCbwHaltsBothEndpoints := by
  unfold Obligations.BadCbwHaltsBothEndpoints
  intro s rest hwf hc hirq hq
  dsimp only
  intro hbad
  have hp : (⟨s.cfg.mscOut, .out⟩ : Tc).pid ≠ .setup := nofun
  have hread : ReadOnce s (consumed s ⟨s.cfg.mscOut, .out⟩ rest) s.cfg.mscOut .out := consumed_readOnce _ _ _ hp
  have hdirs : SameDirsBut s (consumed s ⟨s.cfg.mscOut, .out⟩ rest) s.cfg.mscOut .out := consumed_dirsBut _ _ _
  have hnext := exec_mscOut_noCbw hwf hirq hq hbad
  have hin : (consumed s ⟨s.cfg.mscOut, .out⟩ rest).epDir s.cfg.mscIn .inp = s.epDir s.cfg.mscIn .inp :=
    hdirs _ _ (.inr (by simp))
  have hhalted : ((consumed s ⟨s.cfg.mscOut, .out⟩ rest).epDir s.cfg.mscOut .out).halted =
      (s.epDir s.cfg.mscOut .out).halted := by
    obtain ⟨-, -, -, -, -, -, -, -, -, h⟩ := hread
    exact h
  have hwf' : (consumed s ⟨s.cfg.mscOut, .out⟩ rest).cfg.wf = true := hwf
  have hframe := badCbwHandled_frame hwf' hc
  have htcq := badCbwHandled_tcq hwf' hc
  obtain ⟨hi, ho, hinHalts, hinKept, houtHalts, houtKept, hothers⟩ := badCbwHandled_bothHalted hwf' hc
  generalize badCbwHandled (consumed s ⟨s.cfg.mscOut, .out⟩ rest) = t at *
  refine ⟨t, hnext, by rw [hframe]; rfl, hi, ho, fun hf => ?_, fun hh => ?_, fun hf => ?_, fun hh => ?_, ?_,
    fun e d hne => ?_, sameMemory_of (by rw [hframe]; rfl), by rw [hframe]; rfl, ?_⟩
  · exact SameDir.halts (u := consumed s ⟨s.cfg.mscOut, .out⟩ rest) ⟨rfl, hin⟩
      (hinHalts ((congrArg EpDir.halted hin).trans hf))
  · exact (hinKept ((congrArg EpDir.halted hin).trans hh)).trans hin
  · exact ⟨consumed s ⟨s.cfg.mscOut, .out⟩ rest, rfl, hread, houtHalts (hhalted.trans hf)⟩
  · exact readOnce_of_kept hp (houtKept (hhalted.trans hh))
  · rw [← hin, ← hhalted]
    exact htcq
  · exact (hothers e d hne).trans (hdirs e d (ne_of_not_isMsc hne).2)
  · have hmsc : t.msc = { s.msc.clearTransient with state := .nrr } := by rw [hframe]; rfl
    have hout : t.outputs = s.outputs ++ unwound s.msc := by rw [hframe]; rfl
    rw [hmsc, hout]
    exact hframe

end Sys2Proof.Machine
end

section
/-! # The thirteen cases, and a CBW from end to end (43_msc_bot.md R174 to R190)

O49 to O51. -/

namespace Sys2Proof.Machine

/-! ## The cases that start nothing -/

section
variable {s : State} {H D : Intent} {dlen : Nat}

/-- The command itself fails, and not the two intents (R181, R186, R188). -/
abbrev caseFails (H D : Intent) (h dlen : Nat) : Prop := D = .none ∨ (H = .out ∧ D = .out ∧ dlen < h)

theorem runCase_disagree (hH : H ≠ .none)
    (h : caseFails H D s.msc.requested dlen ∨ H ≠ D ∨ s.msc.requested < dlen) (cmd : ScsiCmd) :
    runCase (selectCase H D s.msc.requested dlen) cmd dlen s =
      .next (stallWith s (if caseFails H D s.msc.requested dlen then 1 else 2) s.msc.requested
        (if H = .inp then .inp else .out)) := by
  unfold caseFails at h ⊢
  cases H with
  | none => exact absurd rfl hH
  | inp =>
    cases D with
    | none => simp [selectCase, runCase, failed]
    | inp =>
      have hlt : s.msc.requested < dlen := by simpa using h
      simp [selectCase, runCase, phaseError, hlt.not_gt, hlt.ne]
    | out => simp [selectCase, runCase, phaseError]
  | out =>
    cases D with
    | none => simp [selectCase, runCase, failed]
    | inp => simp [selectCase, runCase, phaseError]
    | out =>
      obtain hlt | hlt : dlen < s.msc.requested ∨ s.msc.requested < dlen := by simpa using h
      · simp [selectCase, runCase, failed, hlt]
      · simp [selectCase, runCase, phaseError, hlt.not_gt, hlt.ne]

theorem runCase_nothingAsked (D : Intent) (dlen : Nat) (cmd : ScsiCmd) (s : State) :
    runCase (selectCase .none D s.msc.requested dlen) cmd dlen s =
      cswWith s (if D = .none then s.msc.status else 2) 0 := by
  cases D <;> rfl

end

theorem bulkEp_ite (s : State) (p : Prop) [Decidable p] :
    s.bulkEp (if p then .inp else .out) = if p then s.cfg.mscIn else s.cfg.mscOut := by
  split <;> rfl

/-- Settles O49: the table's row is a stall of the host's direction, or a CSW. -/
theorem stallingCasesMatchTable : Obligations.StallingCasesMatchTable := by
  unfold Obligations.StallingCasesMatchTable
  intro s cmd H D dlen hwf hc
  dsimp only
  refine ⟨fun hH hdis hh => ?_, ?_⟩
  · have hcase := runCase_disagree hH hdis cmd
    have hep := bulkEp_ite s (H = .inp)
    rw [stallWith_eq] at hcase
    obtain ⟨hst, hframe⟩ := stallMsc_stalls (s := s)
      (u := s.setMsc { s.msc with
        status := if caseFails H D s.msc.requested dlen then 1 else 2, residue := s.msc.requested })
      ⟨rfl, rfl, rfl⟩ rfl rfl hwf hc (by rw [hep]; exact hh)
    rw [← hep]
    exact ⟨_, hcase, hst.msc, hst.tcq, hst.halts, hst.dirs, hst.memory, hframe⟩
  · rintro rfl ha hi
    have hcase := runCase_nothingAsked D dlen cmd s
    refine ⟨fun hh => hcase.trans (sendCsw_waits ha hi hh), fun hcl hm hsp => ?_⟩
    obtain ⟨hnext, hgo⟩ := sendCsw_goesOut (s := s)
      (u := s.setMsc { s.msc with status := if D = .none then s.msc.status else 2, residue := 0 }) ⟨rfl, rfl⟩ rfl
      hwf hm hc hcl hsp ha hi
    exact ⟨_, hcase.trans hnext, hgo.sends rfl, hgo.dirs, hgo.frame⟩

/-! ## A CBW latched -/

theorem Cbw.parse_bytes (w : Cbw) : Cbw.parse w.bytes = w := by
  obtain ⟨sig, tag, len, flags, lun, cbl, cb⟩ := w
  simp only [Cbw.parse, Cbw.mk.injEq]
  refine ⟨le32At_le32 sig, le32At_le32 tag, le32At_le32 len, rfl, rfl, rfl, ?_⟩
  have hbyte (i : Nat) : byteAt (Cbw.bytes ⟨sig, tag, len, flags, lun, cbl, cb⟩) (15 + i) = byteAt cb.toList i := by
    rw [Nat.add_comm]
    rfl
  ext i hi : 1
  have hget (b : List Byte) : (bytes16At b 15)[i] = byteAt b (15 + i) := by simp [bytes16At, tabulate16]
  rw [hget, hbyte]
  simp [byteAt, hi]

theorem Cbw.length_bytes (w : Cbw) : w.bytes.length = 31 := by simp [Cbw.bytes, le32]

/-- The completion of bulk OUT consumed, and its packet latched (R174). -/
def cbwTaken (s : State) (rest : List Tc) (w : Cbw) : State := latchCbw (consumed s ⟨s.cfg.mscOut, .out⟩ rest) w

section
variable {s : State} {rest : List Tc} {w : Cbw}

/-- `MSC_OUT` on a valid CBW. -/
theorem exec_mscOut_cbw {b : Desc} (hwf : s.cfg.wf = true) (hirq : s.tcIrqEn = true)
    (hq : s.tcq = ⟨s.cfg.mscOut, .out⟩ :: rest) (hs : s.msc.state = .idle)
    (hb : (s.epDir s.cfg.mscOut .out).bd (s.rd s.cfg.mscOut .out) = b)
    (hn : b.count = 31) (hsp : b.addr + 31 ≤ s.cfg.memSize) (hw : Cbw.parse (s.bytes b.addr 31) = w)
    (hv : cbwValid s.cfg 31 w = true) : exec .mscOut s = evaluate (cbwTaken s rest w) := by
  refine (exec_mscOut hwf hirq hq).trans
    ((onMscOut_idle (s := consumed s ⟨s.cfg.mscOut, .out⟩ rest) hs ?_).trans ?_)
  · rw [hb]
    exact hsp
  · rw [hb, hn, Nat.min_self]
    subst hw
    exact if_pos hv

theorem cbwTaken_frame (s : State) (rest : List Tc) (w : Cbw) : cbwTaken s rest w =
    { s with eps := (cbwTaken s rest w).eps, tcq := rest, msc := s.msc.latched w } := by
  unfold cbwTaken
  rw [latchCbw_eq, armOut_frame]
  rfl

theorem cbwTaken_dirsBut (s : State) (rest : List Tc) (w : Cbw) :
    SameDirsBut s (cbwTaken s rest w) s.cfg.mscOut .out := by
  unfold cbwTaken
  rw [latchCbw_eq]
  intro e d h
  have harm := armOut_dirsBut
    ((consumed s ⟨s.cfg.mscOut, .out⟩ rest).setMsc ((consumed s ⟨s.cfg.mscOut, .out⟩ rest).msc.latched w)) e d h
  exact harm.trans ((State.setMsc_epDir ..).trans (consumed_dirsBut s ⟨s.cfg.mscOut, .out⟩ rest e d h))

theorem cbwTaken_sameDir (s : State) (rest : List Tc) (w : Cbw) : SameDir s (cbwTaken s rest w) s.cfg.mscIn .inp :=
  ⟨by rw [cbwTaken_frame], cbwTaken_dirsBut s rest w _ _ (.inr (by simp))⟩

end

/-! ## What the evaluation of two commands comes to -/

/-- An unknown command evaluated (44_scsi.md R229), as case 1. -/
def unknownFailed (s : State) : State :=
  { s with
    msc := { s.msc with status := 1, intent := .none, caseNo := 1, residue := 0 }
    sense := s.cfg.sense .invalidCommand }

/-- `INQUIRY` evaluated (44_scsi.md R221), as case 5 or 6. -/
def inquiryDue (s : State) : State :=
  { s with
    msc := { s.msc with
      resp := s.cfg.inquiry s.msc.lun ++ s.msc.resp.drop (s.cfg.inquiry s.msc.lun).length, txSrc := .internal
      intent := .inp, caseNo := if s.msc.requested = 36 then 6 else 5 } }

section
variable {s : State}

theorem evaluate_unknown {op : Byte} (hcmd : scsiOf s.cfg s.msc.cbw.cb = .unknown op) (hr : s.msc.requested = 0) :
    evaluate s = sendCsw (unknownFailed s) := by
  have hev : evalLatched s = evalFail s .invalidCommand := by rw [evalLatched, hcmd]; rfl
  have hone : evaluated (evalFail s .invalidCommand) =
      { s with
        msc := { s.msc with status := 1, intent := .none, caseNo := 1 }, sense := s.cfg.sense .invalidCommand } := by
    unfold evaluated
    simp [evalFail, State.setSense, State.setMsc, hr, hostIntent, selectCase, BotCase.num, failed]
  have hcase : selectCase (hostIntent s.msc.requested s.msc.hostDir) .none s.msc.requested 0 = .c1 := by
    rw [hr]
    rfl
  rw [evaluate_eq, hev, hone]
  exact congrArg (fun c => runCase c (scsiOf s.cfg s.msc.cbw.cb) 0 _) hcase

theorem evaluate_inquiry (hcmd : scsiOf s.cfg s.msc.cbw.cb = .inquiry) (hd : s.msc.hostDir = .inp)
    (hr : 36 ≤ s.msc.requested) : evaluate s = beginIn (inquiryDue s) .inquiry 36 := by
  have hev : evalLatched s = evalInquiry s := by rw [evalLatched, hcmd]; rfl
  have hcase : selectCase (hostIntent s.msc.requested s.msc.hostDir) .inp s.msc.requested 36 =
      if s.msc.requested = 36 then .c6 else .c5 := by
    have hhost : hostIntent s.msc.requested s.msc.hostDir = .inp := by rw [hd]; exact if_neg (by omega)
    rw [hhost, selectCase]
    obtain h | h := Nat.lt_or_eq_of_le hr
    · rw [if_pos h, if_neg h.ne']
    · rw [if_neg (by omega), if_pos h.symm, if_pos h.symm]
  have hdue : evaluated (evalInquiry s) = inquiryDue s := by
    have hnum : (selectCase (hostIntent s.msc.requested s.msc.hostDir) .inp s.msc.requested 36).num =
        if s.msc.requested = 36 then 6 else 5 := by
      rw [hcase]
      split <;> rfl
    rw [inquiryDue, ← hnum]
    rfl
  rw [evaluate_eq, hev, hdue]
  refine (congrArg (fun c => runCase c (scsiOf s.cfg s.msc.cbw.cb) 36 (inquiryDue s)) hcase).trans ?_
  rw [hcmd]
  split <;> rfl

/-- The first packet of a response is due (R182, R183). -/
def responseDue (s : State) (dlen : Nat) : State :=
  s.setMsc { s.msc with intentLen := dlen, state := .dataIn, txPtr := 0, txRem := dlen }

theorem beginIn_inquiry (hh : (s.epDir s.cfg.mscIn .inp).halted = false) (dlen : Nat) :
    beginIn s .inquiry dlen = pumpIn (responseDue s dlen) := by
  have h : ¬((s.setMsc { s.msc with intentLen := dlen }).epDir s.cfg.mscIn .inp).halted = true := by simp [hh]
  exact if_neg h

end

/-! ## An unknown command, from the wire to the CSW -/

theorem exec_cbw {s u : State} {w : Cbw}
    (hh : outHandshake s s.cfg.mscOut (s.nextBd s.cfg.mscOut .out).toggle 31 = .ack)
    (ht : takeOut s s.cfg.mscOut w.bytes = .next u) : exec (.cbw w.bytes) s = consumeIfNext s.tcq u := by
  change execCbw w.bytes s = _
  rw [execCbw, Cbw.length_bytes]
  refine (if_pos hh).trans ?_
  rw [ht]
  rfl

theorem scsiOf_unknown {c : Config} {cb : Vector Byte 16} (h : c.scsiKind (cb.get 0) = none) :
    scsiOf c cb = .unknown (cb.get 0) := by
  have hb : byteAt cb.toList 0 = cb.get 0 := by simp [byteAt, Vector.get]
  simp only [scsiOf, hb, h]

theorem scsiOf_inquiry {c : Config} {cb : Vector Byte 16} (h : c.scsiKind (cb.get 0) = some .inquiry) :
    scsiOf c cb = .inquiry := by
  have hb : byteAt cb.toList 0 = cb.get 0 := by simp [byteAt, Vector.get]
  simp only [scsiOf, hb, h]

/-- A CBW that asks for no data with an operation code the block does not know, at bulk OUT's next completion. -/
theorem exec_mscOut_unknown {s : State} {rest : List Tc} {w : Cbw} {b : Desc} (hwf : s.cfg.wf = true) (hm : s.memoryOk)
    (hc : s.dev.configurationValue ≠ 0) (hirq : s.tcIrqEn = true) (hq : s.tcq = ⟨s.cfg.mscOut, .out⟩ :: rest)
    (hs : s.msc.state = .idle) (ha : s.msc.cswArmed = false) (hi : s.msc.inArmed = false)
    (hb : (s.epDir s.cfg.mscOut .out).bd (s.rd s.cfg.mscOut .out) = b) (hn : b.count = 31)
    (hsp : b.addr + 31 ≤ s.cfg.memSize) (hw : Cbw.parse (s.bytes b.addr 31) = w) (hv : cbwValid s.cfg 31 w = true)
    (hlen : w.length = 0) (hkind : s.cfg.scsiKind (w.cb.get 0) = none) (hcl : s.clear s.cfg.mscIn .inp)
    (hspi : s.nextBuf s.cfg.mscIn .inp + 13 ≤ s.cfg.memSize) :
    ∃ t, exec .mscOut s = .next t ∧
      CswGoesOut s (unknownFailed (cbwTaken s rest w)) t (cswBytes w.tag 0 1) := by
  have hframe := cbwTaken_frame s rest w
  have hsame := cbwTaken_sameDir s rest w
  have hexec := exec_mscOut_cbw hwf hirq hq hs hb hn hsp hw hv
  generalize cbwTaken s rest w = v at hframe hsame hexec ⊢
  have hcmd : scsiOf v.cfg v.msc.cbw.cb = .unknown (w.cb.get 0) := by
    rw [hframe]
    exact scsiOf_unknown hkind
  have hreq : v.msc.requested = 0 := by
    rw [hframe]
    exact congrArg BitVec.toNat hlen
  obtain ⟨hnext, hgo⟩ := sendCsw_goesOut (s := s) (u := unknownFailed v) ⟨hsame.cfg, hsame.epDir⟩
    (by rw [hframe]; rfl) hwf hm (by rw [hframe]; exact hc) hcl hspi
    (by rw [hframe]; exact ha) (by rw [hframe]; exact hi)
  have hdue : (unknownFailed v).cswDue = cswBytes w.tag 0 1 := by rw [hframe]; rfl
  rw [hdue] at hgo
  exact ⟨_, hexec.trans ((evaluate_unknown hcmd hreq).trans hnext), hgo⟩

theorem takeOut_memoryOk {s u : State} {e : EpNum} {b : List Byte} (hm : s.memoryOk)
    (hsp : (s.nextBd e .out).addr + b.length ≤ s.cfg.memSize) (h : takeOut s e b = .next u) : u.memoryOk := by
  have hu : outTaken s e b = u := Host.Outcome.next.inj ((takeOut_ok hsp).symm.trans h)
  rw [← hu, State.memoryOk, outTaken_frame]
  exact Memory.wf_writeBytes hm ..

/-- Settles O50: the packet lands (O37), the CBW is latched and evaluated as case 1, and the CSW goes out. -/
theorem unknownCommandSendsFailedCsw : Obligations.UnknownCommandSendsFailedCsw := by
  unfold Obligations.UnknownCommandSendsFailedCsw
  intro s w hwf hm hc hirq hnil hs ha hi hsig hfl hlun hcb1 hcb2 hlen hkind
  dsimp only
  intro hown hstall hcnt hsp hrd hcl hspi
  obtain ⟨h0, -⟩ := Config.wf_mscOut hwf
  have h31 := Cbw.length_bytes w
  have hfree : ¬(s.cfg.mscOut = 0 ∧ s.ep0Hold = true) := fun h => h0 h.1
  have hh := (outHandshake_ack s s.cfg.mscOut (s.nextBd s.cfg.mscOut .out).toggle 31).2
    ⟨⟨hown, hfree⟩, hstall, hcnt, rfl⟩
  obtain ⟨-, -, hout⟩ := hwOutStoresPayload s s.cfg.mscOut (s.nextBd s.cfg.mscOut .out).toggle w.bytes hm
  obtain ⟨u, hu, hbd, -, -, -, -, hidx, -, -, -, -, hbytes, -, hdirs, hframe⟩ :=
    hout ⟨⟨hown, hstall, hfree⟩, by rw [h31]; exact hcnt, rfl⟩ (by rw [h31]; exact hsp)
  have htake : takeOut s s.cfg.mscOut w.bytes = .next u := by rwa [exec_hwOut, h31, if_pos hh] at hu
  rw [h31] at hbd hbytes
  have hmu := takeOut_memoryOk hm (by rw [h31]; exact hsp) htake
  have hcfg : u.cfg = s.cfg := by rw [hframe]
  have hin : SameDir s u s.cfg.mscIn .inp := ⟨hcfg, hdirs _ _ (.inr (by simp))⟩
  have hq : u.tcq = [⟨u.cfg.mscOut, .out⟩] := by rw [hframe, hnil]; rfl
  have hirqu : u.tcIrqEn = true := by rw [hframe]; exact hirq
  have hrdu : u.rd s.cfg.mscOut .out = s.hw s.cfg.mscOut .out := by
    rw [← hrd, State.rd, State.rd, State.pp, State.pp, hidx, hcfg]
  have hmsc : u.msc = s.msc := by rw [hframe]
  have hv : cbwValid u.cfg 31 w = true := (cbwValid_iff ..).2 ⟨rfl, hsig, hfl, by rw [hcfg]; exact hlun, hcb1, hcb2⟩
  obtain ⟨t, ht, hgo⟩ := exec_mscOut_unknown (by rw [hcfg]; exact hwf) hmu (by rw [hframe]; exact hc) hirqu hq
    (by rw [hmsc]; exact hs) (by rw [hmsc]; exact ha) (by rw [hmsc]; exact hi) (by rw [hcfg, hrdu, hbd]) rfl
    (by rw [hcfg]; exact hsp) (by rw [hbytes, Cbw.parse_bytes]) hv hlen (by rw [hcfg]; exact hkind)
    (by rw [hcfg]; exact hin.clear.2 hcl) (by rw [hcfg, hin.nextBuf]; exact hspi)
  have hmsct : t.msc = { s.msc.latched w with
      status := 1, intent := .none, caseNo := 1, residue := 0, csw := cswBytes w.tag 0 1, state := .csw
      cswArmed := true } := by rw [hgo.msc, unknownFailed, cbwTaken_frame, hmsc]
  have htframe := hgo.frame
  rw [unknownFailed, cbwTaken_frame, hcfg] at htframe
  have hoff := hgo.offers
  have hcsw := hgo.bytes
  rw [hcfg, hin.nextBuf] at hoff hcsw
  refine ⟨u, t, hu, ht, ?_⟩
  rw [hmsct]
  refine ⟨?_, rfl, rfl, congrArg BitVec.toNat hlen, rfl, rfl, rfl, rfl, rfl, rfl, hin.offers hoff, hcsw,
    by rw [htframe], ?_, fun e' d hne => ?_⟩
  · rw [exec_cbw hh htake, hnil, consumeIfNext_nil hirqu hq]
    exact ht
  · rw [htframe, hframe]
  · obtain ⟨hni, hno⟩ := ne_of_not_isMsc hne
    have hdt := hgo.dirs e' d (by rw [hcfg]; exact hni)
    have hdv := cbwTaken_dirsBut u [] w e' d (by rw [hcfg]; exact hno)
    exact hdt.trans ((epDir_congr rfl e' d).trans (hdv.trans (hdirs e' d hno)))

end Sys2Proof.Machine
end

section
/-! # The beginning of a data phase (43_msc_bot.md R177, R182, R183, R189, R196; 44_scsi.md R221, R227, R228)

The driver asked to start, and the first packet of `INQUIRY`: O51. -/

namespace Sys2Proof.Machine

/-! ## `READ_10` and `WRITE_10` -/

/-- The driver asked to start, and the refusal recorded, before the endpoint is stalled (R177). -/
def startRefused (s : State) (dlen : Nat) (o : Output) (r : SenseReason) (c : BotCase) : State :=
  { s with
    msc := { s.msc with
      intentLen := dlen, intent := .none, caseNo := c.num, status := failed, residue := s.msc.requested }
    sense := s.cfg.sense r, outputs := s.outputs ++ [o] }

section
variable {s : State} {lba : BitVec 32} {blocks : BitVec 16} {dlen : Nat}

theorem beginIn_waits (hh : (s.epDir s.cfg.mscIn .inp).halted = true) (cmd : ScsiCmd) : beginIn s cmd dlen =
    .next { s with msc := { s.msc with
      intentLen := dlen, status := failed, residue := s.msc.requested, state := .stall } } := by
  have h : ((s.setMsc { s.msc with intentLen := dlen }).epDir s.cfg.mscIn .inp).halted = true := by simp [hh]
  exact if_pos h

/-- The driver asked to start. -/
def startAsked (s : State) (dlen : Nat) (o : Output) : State := (s.setMsc { s.msc with intentLen := dlen }).emit o

theorem startFailed_asked (s : State) (dlen : Nat) (o : Output) (r : SenseReason) (c : BotCase) (d : Dir) :
    startFailed (startAsked s dlen o) r c d = stallMsc (startRefused s dlen o r c) d := by
  simp only [startFailed, raise, stallWith_eq, startAsked, startRefused, State.setMsc, State.setSense, State.emit]

theorem beginIn_read10 (hh : (s.epDir s.cfg.mscIn .inp).halted = false) : beginIn s (.read10 lba blocks) dlen =
    let u := startAsked s dlen (.drvStartRead s.msc.lun lba blocks)
    if (u.drvOf s.msc.lun).startReadOk then .next (u.setMsc { u.msc with op := .read, state := .dataIn, txRem := 0 })
    else .next (startFailed u .readError .c4 .inp) := by
  have h : ¬((s.setMsc { s.msc with intentLen := dlen }).epDir s.cfg.mscIn .inp).halted = true := by simp [hh]
  exact if_neg h

theorem beginOut_write10 (s : State) (lba : BitVec 32) (blocks : BitVec 16) (dlen : Nat) :
    beginOut s (.write10 lba blocks) dlen =
      let u := startAsked s dlen (.drvStartWrite s.msc.lun lba blocks)
      let a := u.drvOf s.msc.lun
      if a.startWriteOk = false ∨ a.capacity = 0 then .next (startFailed u .writeError .c9 .out)
      else .next (u.setMsc { u.msc with
        wbufPtr := a.buffer, wbufCap := a.capacity, wcb := a.cb, wbufFill := 0, awaitingDrain := false, missed := 0
        op := .write, state := .dataOut }) := rfl

theorem startRefused_stalls {d : Dir} (hwf : s.cfg.wf = true) (hc : s.dev.configurationValue ≠ 0)
    (hh : (s.epDir (s.bulkEp d) d).halted = false) (o : Output) (r : SenseReason) (c : BotCase) :
    Stalls s (stallMsc (startRefused s dlen o r c) d) d (startRefused s dlen o r c).msc ∧
      stallMsc (startRefused s dlen o r c) d =
        { s with
          eps := (stallMsc (startRefused s dlen o r c) d).eps, tcq := (stallMsc (startRefused s dlen o r c) d).tcq
          msc := (stallMsc (startRefused s dlen o r c) d).msc, sense := s.cfg.sense r, outputs := s.outputs ++ [o] } :=
  stallMsc_stalls ⟨rfl, rfl, rfl⟩ rfl rfl hwf hc hh

theorem runCase_begins {c : BotCase} (hc : c = .c5 ∨ c = .c6) (cmd : ScsiCmd) :
    runCase c cmd dlen s = beginIn s cmd dlen := by
  obtain rfl | rfl := hc <;> rfl

end

/-! ## `INQUIRY` -/

/-- The CBW of an `INQUIRY` taken, and its response due. -/
def inquiryBegun (s : State) (rest : List Tc) (w : Cbw) : State := responseDue (inquiryDue (cbwTaken s rest w)) 36

theorem inquiryBegun_frame (s : State) (rest : List Tc) (w : Cbw) : inquiryBegun s rest w =
    { s with
      eps := (cbwTaken s rest w).eps, tcq := rest
      msc := { s.msc.latched w with
        resp := s.cfg.inquiry (cbwLun w) ++ s.msc.resp.drop (s.cfg.inquiry (cbwLun w)).length, txSrc := .internal
        intent := .inp, caseNo := if w.length.toNat = 36 then 6 else 5, intentLen := 36, state := .dataIn, txPtr := 0
        txRem := 36 } } := by
  unfold inquiryBegun
  rw [cbwTaken_frame]
  rfl

section
variable {s : State} {rest : List Tc} {w : Cbw}

theorem inquiryBegun_sameDir (s : State) (rest : List Tc) (w : Cbw) :
    SameDir s (inquiryBegun s rest w) s.cfg.mscIn .inp :=
  ⟨by rw [inquiryBegun_frame], (epDir_congr rfl ..).trans (cbwTaken_sameDir s rest w).epDir⟩

theorem inquiryBegun_packetLen (s : State) (rest : List Tc) (w : Cbw) :
    (inquiryBegun s rest w).packetLen = min 36 (s.cfg.mps s.cfg.mscIn .inp) := by
  rw [State.packetLen, inquiryBegun_frame]

theorem inquiryBegun_packet (hlen : (s.cfg.inquiry (cbwLun w)).length = 36) :
    (inquiryBegun s rest w).packet = (s.cfg.inquiry (cbwLun w)).take (min 36 (s.cfg.mps s.cfg.mscIn .inp)) := by
  rw [packet_internal (by rw [inquiryBegun_frame]), inquiryBegun_packetLen, inquiryBegun_frame]
  exact List.take_append_of_le_length (by omega)

/-- The CBW of an `INQUIRY` at bulk OUT's next completion. -/
theorem exec_mscOut_inquiry {b : Desc} (hwf : s.cfg.wf = true) (hm : s.memoryOk) (hc : s.dev.configurationValue ≠ 0)
    (hirq : s.tcIrqEn = true) (hq : s.tcq = ⟨s.cfg.mscOut, .out⟩ :: rest) (hs : s.msc.state = .idle)
    (hb : (s.epDir s.cfg.mscOut .out).bd (s.rd s.cfg.mscOut .out) = b) (hn : b.count = 31)
    (hsp : b.addr + 31 ≤ s.cfg.memSize) (hw : Cbw.parse (s.bytes b.addr 31) = w) (hv : cbwValid s.cfg 31 w = true)
    (hdir : cbwDir w = .inp) (hlen : 36 ≤ w.length.toNat) (hkind : s.cfg.scsiKind (w.cb.get 0) = some .inquiry)
    (hcl : s.clear s.cfg.mscIn .inp) (hl : (s.cfg.inquiry (cbwLun w)).length = 36)
    (hspi : s.nextBuf s.cfg.mscIn .inp + min 36 (s.cfg.mps s.cfg.mscIn .inp) ≤ s.cfg.memSize) :
    ∃ t, exec .mscOut s = .next t ∧ PacketGoesOut s (inquiryBegun s rest w) t := by
  have hcmd : scsiOf (cbwTaken s rest w).cfg (cbwTaken s rest w).msc.cbw.cb = .inquiry := by
    rw [cbwTaken_frame]
    exact scsiOf_inquiry hkind
  have hev : evaluate (cbwTaken s rest w) = beginIn (inquiryDue (cbwTaken s rest w)) .inquiry 36 :=
    evaluate_inquiry hcmd (by rw [cbwTaken_frame]; exact hdir) (by rw [cbwTaken_frame]; exact hlen)
  have hsame := inquiryBegun_sameDir s rest w
  have hfree : ((inquiryDue (cbwTaken s rest w)).epDir (inquiryDue (cbwTaken s rest w)).cfg.mscIn .inp).halted =
      false := by
    have hv := cbwTaken_sameDir s rest w
    rw [show (inquiryDue (cbwTaken s rest w)).cfg = s.cfg from hv.cfg]
    exact (congrArg EpDir.halted ((epDir_congr rfl ..).trans hv.epDir)).trans hcl.1
  have hpk := inquiryBegun_packet (rest := rest) hl
  have hpl := inquiryBegun_packetLen s rest w
  have hplen : (inquiryBegun s rest w).packet.length = (inquiryBegun s rest w).packetLen := by
    rw [hpk, hpl, List.length_take, hl]
    omega
  have hpump : pumpIn (inquiryBegun s rest w) = .next (packetSent (inquiryBegun s rest w)) := by
    refine pumpIn_internal (by rw [inquiryBegun_frame]) ?_ ?_
    · rw [hpl, inquiryBegun_frame]
      simp only [List.length_append, hl]
      omega
    · rw [hpl, hsame.cfg, hsame.nextBuf]
      exact hspi
  have hmem : (inquiryBegun s rest w).mem = s.mem := by rw [inquiryBegun_frame]
  have hdev : (inquiryBegun s rest w).dev.configurationValue ≠ 0 := by rw [inquiryBegun_frame]; exact hc
  refine ⟨_, ?_, packetSent_goesOut hsame hmem hm hdev hcl hplen⟩
  exact (exec_mscOut_cbw hwf hirq hq hs hb hn hsp hw hv).trans (hev.trans ((beginIn_inquiry hfree 36).trans hpump))

end

/-- Settles O51: the first packet of the response; and the driver asked to start, its refusal a stall. -/
theorem inquiryBeginsDataPhase : Obligations.InquiryBeginsDataPhase := by
  unfold Obligations.InquiryBeginsDataPhase
  refine ⟨fun s rest hwf hm hc hirq hq hs => ?_, fun s lba blocks dlen hwf hc => ?_⟩
  · dsimp only
    generalize hw : Cbw.parse (s.bytes ((s.epDir s.cfg.mscOut .out).bd (s.rd s.cfg.mscOut .out)).addr 31) = w
    intro hn hsp hsig hfl hlun hcb1 hcb2 hlen hkind hcl hspi
    have hdir : cbwDir w = .inp := by
      rw [cbwDir, hfl]
      rfl
    have hv : cbwValid s.cfg 31 w = true := (cbwValid_iff ..).2 ⟨rfl, hsig, by rw [hfl]; rfl, hlun, hcb1, hcb2⟩
    have hl : (s.cfg.inquiry (cbwLun w)).length = 36 := by
      rw [Config.wf_inquiry hwf, cbwLun_val]
      exact if_pos hlun
    obtain ⟨t, hnext, hgo⟩ :=
      exec_mscOut_inquiry hwf hm hc hirq hq hs rfl hn hsp hw hv hdir hlen hkind hcl hl hspi
    have hpk := inquiryBegun_packet (rest := rest) hl
    have hpl := inquiryBegun_packetLen s rest w
    have hmsc := hgo.msc
    have hframe := hgo.frame
    rw [hpl, inquiryBegun_frame] at hmsc
    have hoff := hgo.offers
    have hbytes := hgo.bytes
    have hout := hgo.outside
    rw [hpl] at hoff hbytes hout
    rw [hpk] at hbytes
    rw [inquiryBegun_frame] at hframe
    refine ⟨t, hnext, ?_⟩
    rw [hmsc]
    refine ⟨rfl, rfl, rfl, rfl, hdir, rfl, cbwLun_val w, rfl, rfl, rfl, rfl, rfl, Nat.zero_add _, rfl, rfl, rfl,
      hbytes, hout, hoff, by rw [hframe], by rw [hframe], fun e d hne => ?_⟩
    obtain ⟨hni, hno⟩ := ne_of_not_isMsc hne
    exact (hgo.dirs e d hni).trans ((epDir_congr rfl e d).trans (cbwTaken_dirsBut s rest w e d hno))
  · dsimp only
    refine ⟨fun c hcase => ⟨fun hh cmd => ?_, fun hh ho => ?_, fun hh ho => ?_⟩, fun ho hcap => ?_,
      fun hno hh => ?_⟩
    · rw [runCase_begins hcase, beginIn_waits hh]
      rfl
    · rw [runCase_begins hcase, beginIn_read10 hh]
      exact if_pos ho
    · have hno : ¬(s.drvOf s.msc.lun).startReadOk = true := by rw [ho]; decide
      obtain ⟨hst, hframe⟩ := startRefused_stalls (dlen := dlen) (d := .inp) hwf hc hh
        (.drvStartRead s.msc.lun lba blocks) .readError .c4
      refine ⟨_, ?_, hst.msc, hst.tcq, hst.halts, hst.dirs, hst.memory, hframe⟩
      rw [runCase_begins hcase, beginIn_read10 hh, ← startFailed_asked]
      exact if_neg hno
    · have hyes : ¬((s.drvOf s.msc.lun).startWriteOk = false ∨ (s.drvOf s.msc.lun).capacity = 0) := by
        simp [ho, hcap]
      exact (beginOut_write10 s lba blocks dlen).trans (if_neg hyes)
    · obtain ⟨hst, hframe⟩ := startRefused_stalls (dlen := dlen) (d := .out) hwf hc hh
        (.drvStartWrite s.msc.lun lba blocks) .writeError .c9
      refine ⟨_, ?_, hst.msc, hst.tcq, hst.halts, hst.dirs, hst.memory, hframe⟩
      rw [← startFailed_asked]
      exact (beginOut_write10 s lba blocks dlen).trans (if_pos hno)

end Sys2Proof.Machine
end
